-- ==== Sys2Proof/Word.lean ====
section
/-! DEFINITION. The word types of the block (spec/00_scope.md R7): symbols, pixels and samples are bytes, the
dimension registers half words, the host bus data words. -/

namespace Sys2Proof

/-- A symbol, a pixel or an output sample (R7, R64, R65). -/
abbrev Byte := BitVec 8

/-- A width, a height, a line count or a line index (R7). -/
abbrev Half := BitVec 16

/-- One host bus word (R7, R43). -/
abbrev Word := BitVec 32

end Sys2Proof
end

