-- ==== Sys2Proof/Config.lean ====
section
/-! DEFINITION. What an implementation fixes, and the free values: constants without a body, of which no proof can
know the value. -/

namespace Sys2Proof.Config

/-- OVERSAMPLE's default (spec/00_scope.md R5). The parameter itself is a field of State, so that every statement
covers all its values (log 1). -/
def defaultOversample : BitVec 5 := 3#5

/-- The symbols read from pixels that changed during the run: any value (spec/70_reset_and_hazards.md R153,
spec/93_implementation_defined.md U2; log 7). The argument is State's counter of free values. -/
opaque freePixel : Nat → Byte

end Sys2Proof.Config
end

