-- ==== Sys2Proof/Syntax.lean ====
section
/-! DEFINITION. The instructions of the block (spec/opcode_table.json, one constructor per row), the fields of a
segment descriptor and of a host bus request, and the packets the two interfaces deliver (spec/30_encoding.md). -/

namespace Sys2Proof

/-- The two channels, left (A) and right (B) (R13). -/
inductive Channel where
  | a
  | b
deriving DecidableEq, Repr

/-- The four operations a descriptor's OP field can name (R69). -/
inductive SegOp where
  | sync
  | space
  | image
  | telem
deriving DecidableEq, Repr

/-- The fields of a segment descriptor that is not reserved (R69): OP, CH, LVL and LEN. -/
structure Descriptor where
  op  : SegOp
  ch  : Channel
  lvl : Bool
  len : BitVec 10
deriving DecidableEq, Repr

/-- A host bus request: write enable, byte offset, write data (R73). -/
structure HbRequest where
  we    : Bool
  addr  : BitVec 8
  wdata : Word
deriving DecidableEq, Repr

/-- What a decoder reads: a descriptor word from the segment ROM, or a request from the host bus. The interface
settles the format and its length (R63). -/
inductive Packet where
  | seg (word : BitVec 16)
  | hb (req : HbRequest)
deriving DecidableEq, Repr

/-- The instructions: one constructor per row of spec/opcode_table.json, in the table's order. The eight WR_RO rows
are eight constructors, one per read-only target (R131). A write carries the bus word written; RD_SEGDESC and the
write to the descriptor ROM carry the index n = addr[4:2] (R130); the unmapped accesses carry their offset (R132). -/
inductive Instr where
  | syncA
  | spaceA
  | imageA
  | telemA
  | syncB
  | spaceB
  | imageB
  | telemB
  | wrCtrl (wdata : Word)
  | rdCtrl
  | rdStatus
  | wrWidthA (wdata : Word)
  | rdWidthA
  | wrWidthB (wdata : Word)
  | rdWidthB
  | wrHeightA (wdata : Word)
  | rdHeightA
  | wrHeightB (wdata : Word)
  | rdHeightB
  | rdNlines
  | rdLine
  | rdPosition
  | rdSn
  | rdPhase
  | rdId
  | rdSegdesc (n : BitVec 3)
  | wrRoStatus (wdata : Word)
  | wrRoNlines (wdata : Word)
  | wrRoLine (wdata : Word)
  | wrRoPosition (wdata : Word)
  | wrRoSn (wdata : Word)
  | wrRoPhase (wdata : Word)
  | wrRoId (wdata : Word)
  | wrRoSegdesc (n : BitVec 3) (wdata : Word)
  | rdUnmapped (addr : BitVec 8)
  | wrUnmapped (addr : BitVec 8) (wdata : Word)
deriving DecidableEq, Repr

/-- Why the decoder refuses a descriptor word: the reserved encodings of R72, one name each, and a legal descriptor
that is none of the eight of the segment program (R70). No host bus request is ever refused (R74, R77). -/
inductive DecodeError where
  /-- OP is one of 0b100 to 0b111 (R72). -/
  | reservedOp
  /-- Bit 10 is 1 (R72). -/
  | reservedBit
  /-- LVL is 1 and OP is not SPACE (R72). -/
  | levelOnNonSpace
  /-- LEN is 0 (R72). -/
  | zeroLength
  /-- A SYNC descriptor whose LEN is not 39 (R72). -/
  | syncLength
  /-- An IMAGE descriptor whose LEN is not 909 (R72). -/
  | imageLength
  /-- Not reserved, but none of the eight descriptors of the segment program (R70; log 16). -/
  | notInProgram
deriving DecidableEq, Repr

/-- The decoder's answer. -/
inductive Decoded where
  | instr (i : Instr)
  | rejected (why : DecodeError)
deriving DecidableEq, Repr

end Sys2Proof
end

