-- ==== Sys2Proof/WellFormed.lean ====
section
/-! DEFINITION. Which instructions are well-formed: the unmapped accesses name an offset that no register has
(spec/20_memory.md R44, R45, spec/44_host_commands.md R132). Every other operand fills its field. -/

namespace Sys2Proof

/-- A register stands at this byte offset: it is a word-aligned offset in 0x00..0x2C or 0x40..0x5C (R44, R45). -/
def mappedOffset (addr : BitVec 8) : Bool :=
  addr.toNat % 4 == 0 && (decide (addr.toNat ≤ 0x2C) || (decide (0x40 ≤ addr.toNat) && decide (addr.toNat ≤ 0x5C)))

/-- The well-formed instructions (R132 for the two unmapped accesses). -/
def Instr.wellFormed : Instr → Bool
  | .syncA | .spaceA | .imageA | .telemA | .syncB | .spaceB | .imageB | .telemB => true
  | .wrCtrl _ | .rdCtrl | .rdStatus => true
  | .wrWidthA _ | .rdWidthA | .wrWidthB _ | .rdWidthB => true
  | .wrHeightA _ | .rdHeightA | .wrHeightB _ | .rdHeightB => true
  | .rdNlines | .rdLine | .rdPosition | .rdSn | .rdPhase | .rdId | .rdSegdesc _ => true
  | .wrRoStatus _ | .wrRoNlines _ | .wrRoLine _ | .wrRoPosition _ => true
  | .wrRoSn _ | .wrRoPhase _ | .wrRoId _ | .wrRoSegdesc _ _ => true
  | .rdUnmapped addr => !mappedOffset addr
  | .wrUnmapped addr _ => !mappedOffset addr

end Sys2Proof
end

