-- ==== Sys2Proof/Decode.lean ====
section
/-! DEFINITION. The decoder of both interfaces, total, refusing reserved descriptors by name (spec/30_encoding.md R69
to R74), the encoder written from the same tables, and the decoding of a table word. -/

namespace Sys2Proof

/-! ## Segment descriptors -/

/-- The CH field (R69): 0 is channel A, 1 is channel B. -/
def channelOfBit (bit : Bool) : Channel := if bit then .b else .a

/-- The CH bit of a channel (R69). -/
def bitOfChannel : Channel → Bool
  | .a => false
  | .b => true

/-- The OP field, bits 15:13 (R69); none for the reserved values. -/
def segOpOfBits (op : BitVec 3) : Option SegOp :=
  if op = 0#3 then some .sync
  else if op = 1#3 then some .space
  else if op = 2#3 then some .image
  else if op = 3#3 then some .telem
  else none

/-- The OP bits of an operation (R69). -/
def bitsOfSegOp : SegOp → BitVec 3
  | .sync => 0#3
  | .space => 1#3
  | .image => 2#3
  | .telem => 3#3

/-- The fields of a descriptor word, or the reserved encoding it is (R69, R72). -/
def descriptorFields (w : BitVec 16) : Except DecodeError Descriptor :=
  let len := w.extractLsb' 0 10
  match segOpOfBits (w.extractLsb' 13 3) with
  | none => .error .reservedOp
  | some op =>
    if w.getLsbD 10 then .error .reservedBit
    else if w.getLsbD 11 && op != .space then .error .levelOnNonSpace
    else if len = 0#10 then .error .zeroLength
    else if op = .sync ∧ len ≠ 39#10 then .error .syncLength
    else if op = .image ∧ len ≠ 909#10 then .error .imageLength
    else .ok ⟨op, channelOfBit (w.getLsbD 12), w.getLsbD 11, len⟩

/-- The descriptor word of a descriptor's fields, the reserved bit 0 (R69). -/
def descriptorWord (d : Descriptor) : BitVec 16 :=
  bitsOfSegOp d.op ++ BitVec.ofBool (bitOfChannel d.ch) ++ BitVec.ofBool d.lvl ++ 0#1 ++ d.len

/-- The segment operation of a descriptor of the segment program (R70); none for a descriptor the program lacks. -/
def segmentInstr (d : Descriptor) : Option Instr :=
  if d = ⟨.sync, .a, false, 39#10⟩ then some .syncA
  else if d = ⟨.space, .a, false, 47#10⟩ then some .spaceA
  else if d = ⟨.image, .a, false, 909#10⟩ then some .imageA
  else if d = ⟨.telem, .a, false, 45#10⟩ then some .telemA
  else if d = ⟨.sync, .b, false, 39#10⟩ then some .syncB
  else if d = ⟨.space, .b, true, 47#10⟩ then some .spaceB
  else if d = ⟨.image, .b, false, 909#10⟩ then some .imageB
  else if d = ⟨.telem, .b, false, 45#10⟩ then some .telemB
  else none

/-- Decode a descriptor word; reserved and foreign descriptors are refused by name (R70, R72, U3). -/
def decodeSegment (w : BitVec 16) : Decoded :=
  match descriptorFields w with
  | .error why => .rejected why
  | .ok d =>
    match segmentInstr d with
    | some i => .instr i
    | none => .rejected .notInProgram

/-! ## Host bus requests -/

/-- The index n = addr[4:2] of SEGDESC[n] (R130). -/
def segdescIndex (addr : BitVec 8) : BitVec 3 := addr.extractLsb' 2 3

/-- The offset of SEGDESC[n], 0b010nnn00 (R74). -/
def segdescOffset (n : BitVec 3) : BitVec 8 := 2#3 ++ n ++ 0#2

/-- The offset lies in SEGDESC[0..7]: 0b010nnn00 (R74). -/
def isSegdescOffset (addr : BitVec 8) : Bool :=
  addr.extractLsb' 5 3 == 2#3 && addr.extractLsb' 0 2 == 0#2

/-- A read request's operation, the first matching line of R74. -/
def decodeRead (addr : BitVec 8) : Instr :=
  if addr = 0x00#8 then .rdCtrl
  else if addr = 0x04#8 then .rdStatus
  else if addr = 0x08#8 then .rdWidthA
  else if addr = 0x0C#8 then .rdWidthB
  else if addr = 0x10#8 then .rdHeightA
  else if addr = 0x14#8 then .rdHeightB
  else if addr = 0x18#8 then .rdNlines
  else if addr = 0x1C#8 then .rdLine
  else if addr = 0x20#8 then .rdPosition
  else if addr = 0x24#8 then .rdSn
  else if addr = 0x28#8 then .rdPhase
  else if addr = 0x2C#8 then .rdId
  else if isSegdescOffset addr then .rdSegdesc (segdescIndex addr)
  else .rdUnmapped addr

/-- A write request's operation, the first matching line of R74. -/
def decodeWrite (addr : BitVec 8) (wdata : Word) : Instr :=
  if addr = 0x00#8 then .wrCtrl wdata
  else if addr = 0x04#8 then .wrRoStatus wdata
  else if addr = 0x08#8 then .wrWidthA wdata
  else if addr = 0x0C#8 then .wrWidthB wdata
  else if addr = 0x10#8 then .wrHeightA wdata
  else if addr = 0x14#8 then .wrHeightB wdata
  else if addr = 0x18#8 then .wrRoNlines wdata
  else if addr = 0x1C#8 then .wrRoLine wdata
  else if addr = 0x20#8 then .wrRoPosition wdata
  else if addr = 0x24#8 then .wrRoSn wdata
  else if addr = 0x28#8 then .wrRoPhase wdata
  else if addr = 0x2C#8 then .wrRoId wdata
  else if isSegdescOffset addr then .wrRoSegdesc (segdescIndex addr) wdata
  else .wrUnmapped addr wdata

/-- Decode a host bus request; `wdata` is ignored on a read (R73, R74). -/
def decodeRequest (r : HbRequest) : Instr :=
  if r.we then decodeWrite r.addr r.wdata else decodeRead r.addr

/-- Decode what an interface delivers (R63). -/
def decode : Packet → Decoded
  | .seg w => decodeSegment w
  | .hb r => .instr (decodeRequest r)

/-! ## The encoder -/

/-- A read request; its write data, which the block ignores, is 0 (R73). -/
def readRequest (addr : BitVec 8) : Packet := .hb ⟨false, addr, 0#32⟩

/-- A write request (R73). -/
def writeRequest (addr : BitVec 8) (wdata : Word) : Packet := .hb ⟨true, addr, wdata⟩

/-- The packet of an instruction, from the descriptor table of R70 and the selector table of R74. -/
def encode : Instr → Packet
  | .syncA => .seg (descriptorWord ⟨.sync, .a, false, 39#10⟩)
  | .spaceA => .seg (descriptorWord ⟨.space, .a, false, 47#10⟩)
  | .imageA => .seg (descriptorWord ⟨.image, .a, false, 909#10⟩)
  | .telemA => .seg (descriptorWord ⟨.telem, .a, false, 45#10⟩)
  | .syncB => .seg (descriptorWord ⟨.sync, .b, false, 39#10⟩)
  | .spaceB => .seg (descriptorWord ⟨.space, .b, true, 47#10⟩)
  | .imageB => .seg (descriptorWord ⟨.image, .b, false, 909#10⟩)
  | .telemB => .seg (descriptorWord ⟨.telem, .b, false, 45#10⟩)
  | .wrCtrl wdata => writeRequest 0x00#8 wdata
  | .rdCtrl => readRequest 0x00#8
  | .rdStatus => readRequest 0x04#8
  | .wrWidthA wdata => writeRequest 0x08#8 wdata
  | .rdWidthA => readRequest 0x08#8
  | .wrWidthB wdata => writeRequest 0x0C#8 wdata
  | .rdWidthB => readRequest 0x0C#8
  | .wrHeightA wdata => writeRequest 0x10#8 wdata
  | .rdHeightA => readRequest 0x10#8
  | .wrHeightB wdata => writeRequest 0x14#8 wdata
  | .rdHeightB => readRequest 0x14#8
  | .rdNlines => readRequest 0x18#8
  | .rdLine => readRequest 0x1C#8
  | .rdPosition => readRequest 0x20#8
  | .rdSn => readRequest 0x24#8
  | .rdPhase => readRequest 0x28#8
  | .rdId => readRequest 0x2C#8
  | .rdSegdesc n => readRequest (segdescOffset n)
  | .wrRoStatus wdata => writeRequest 0x04#8 wdata
  | .wrRoNlines wdata => writeRequest 0x18#8 wdata
  | .wrRoLine wdata => writeRequest 0x1C#8 wdata
  | .wrRoPosition wdata => writeRequest 0x20#8 wdata
  | .wrRoSn wdata => writeRequest 0x24#8 wdata
  | .wrRoPhase wdata => writeRequest 0x28#8 wdata
  | .wrRoId wdata => writeRequest 0x2C#8 wdata
  | .wrRoSegdesc n wdata => writeRequest (segdescOffset n) wdata
  | .rdUnmapped addr => readRequest addr
  | .wrUnmapped addr wdata => writeRequest addr wdata

/-! ## Table words

spec/opcode_table.json numbers a descriptor's bits 15:0, and a selector's bits 8:0 with `we` at bit 8. A request's
write data follows the selector, at bits 40:9 (log 16). -/

/-- The request of a number: the selector at bits 8:0, the write data from bit 9 up (log 16). -/
def requestOfNat (w : Nat) : HbRequest :=
  ⟨(BitVec.ofNat 9 w).getLsbD 8, BitVec.ofNat 8 w, BitVec.ofNat 32 (w / 512)⟩

/-- The host instruction of a table word: at most 16 bits hold a bare selector, more hold the write data too. -/
def decodeSelectorWord (nbits w : Nat) : Option Instr :=
  if w < 512 ∨ (16 < nbits ∧ w < 2 ^ 41) then some (decodeRequest (requestOfNat w)) else none

/-- The instruction the decoder reads from a table word: a descriptor of the segment program if the word has a
descriptor's 16 bits and is one, else a host bus selector. The one word that is both, 0x0027, is SYNC_A at 16 bits
(log 16). -/
def decodeTableWord (nbits w : Nat) : Option Instr :=
  if nbits = 16 ∧ w < 2 ^ 16 then
    match decodeSegment (BitVec.ofNat 16 w) with
    | .instr i => some i
    | .rejected _ => decodeSelectorWord nbits w
  else decodeSelectorWord nbits w

end Sys2Proof
end

