-- ==== Sys2Proof/Machine/State.lean ====
section
/-! DEFINITION. The state of the block, its interfaces and its environment (spec/10_state.md), the reasons a step can
stop, and the state after reset (spec/10_state.md R41). -/

namespace Sys2Proof.Machine

/-- A pixel request `(ch, x, y)` (spec/30_encoding.md R76). -/
structure PixRequest where
  ch : Channel
  x  : BitVec 10
  y  : Half
deriving DecidableEq, Repr

/-- One event from outside the block, other than Reset (spec/00_scope.md R11). -/
inductive Event where
  /-- A host access (R73). -/
  | host (r : HbRequest)
  /-- A slot in which the block may work on its SampleStep, if one is enabled (R11). -/
  | sample
  /-- The pixel source begins (true) or ceases (false) to answer requests (spec/20_memory.md R50). -/
  | pixelSource (ready : Bool)
  /-- The sink begins (true) or ceases (false) to accept bytes (R53). -/
  | sink (ready : Bool)
  /-- The pixel source's image holds a new byte at this pixel (R56). -/
  | imageChange (pixel : PixRequest) (byte : Byte)
  /-- The response to a request that a Reset has made the block forget (spec/70_reset_and_hazards.md R148). -/
  | lateResponse (byte : Byte)
deriving DecidableEq, Repr

/-- One entry of the list of inputs: an event, or a Reset, alone or at the same time as an event (R147). -/
inductive Input where
  | event (e : Event)
  | reset (sameTime : Option Event)
deriving DecidableEq, Repr

/-- The reasons a SampleStep can stop with. The spec gives the block no run-time error (spec/60_exceptions.md R138):
both lie in states no run reaches, and both are safe. -/
inductive Fault where
  /-- Raised by every segment operation whose PHASE is no reachable phase index: "A model must reject or fault any
  PHASE value outside this list" (spec/42_modulator_table_os3.md R109, spec/43_modulator_table_os9.md R110; log 13).
  Safe. -/
  | phaseUnreachable
  /-- Raised by every segment operation whose POS is not below the segment's length, where the codeword has no
  character and the pixel space no column (spec/10_state.md R29, spec/20_memory.md R51; log 14). Safe. -/
  | positionOutsideSegment
deriving DecidableEq, Repr

/-- The refusals. -/
inductive Refusal where
  /-- Raised by exec for an instruction that has no meaning yet; none is left. Safe. -/
  | notModelled (mnemonic : String)
  /-- Raised by step where the decoder refuses what was fetched (spec/30_encoding.md R72, U3; log 16). The segment ROM
  holds no such descriptor, so no step meets it. Safe. -/
  | descriptorRejected (why : DecodeError)
deriving DecidableEq, Repr

/-- The machine: the launch parameters, the block's registers, its interfaces, and what the model adds to say what the
environment does. -/
structure State where
  /-- OVERSAMPLE, the elaboration-time parameter, 1..31 (spec/00_scope.md R5; log 1). No event writes it. -/
  oversample : BitVec 5
  /-- CTRL.SINGLE (R16). -/
  single     : Bool
  /-- CTRL.IRQ_EN (R16). -/
  irqEn      : Bool
  /-- STATUS.BUSY (R17, R30). -/
  busy       : Bool
  /-- STATUS.DONE (R17, R31). -/
  done       : Bool
  /-- STATUS.CFG_ERR (R17, R32). -/
  cfgErr     : Bool
  /-- STATUS.ERRCODE (R17, R32). -/
  errcode    : BitVec 4
  /-- WIDTH_A (R18). -/
  widthA     : Half
  /-- WIDTH_B (R19). -/
  widthB     : Half
  /-- HEIGHT_A (R20). -/
  heightA    : Half
  /-- HEIGHT_B (R21). -/
  heightB    : Half
  /-- NLINES (R22). -/
  nlines     : Half
  /-- LINE (R23). -/
  line       : Half
  /-- POSITION.SEG (R24). -/
  seg        : BitVec 3
  /-- POSITION.POS (R24). -/
  pos        : BitVec 10
  /-- POSITION.SUB (R24). -/
  sub        : BitVec 5
  /-- SN (R25). -/
  sn         : Word
  /-- PHASE (R26). -/
  phase      : BitVec 10
  /-- SYM, the hidden symbol latch (R37). -/
  sym        : Byte
  /-- PIX_PENDING (R38). -/
  pixPending : Bool
  /-- OUT_HOLD: the held byte, none while its valid bit is 0 (R39). -/
  outHold    : Option Byte
  /-- The two images: the pixels that are not 0, by PIX request number, in canonical form (R40, R49; log 2). -/
  pixels     : List Host.Cell
  /-- The output stream: the bytes the sink has accepted, oldest first (R53, R54; log 9). -/
  stream     : List Byte
  /-- The pixel requests issued, oldest first (R52, R76; log 9). -/
  requests   : List PixRequest
  /-- The response of the latest host access: the word a read returned, none after a write (R73; log 8). -/
  response   : Option Word
  /-- The model's own: the pixel source answers now (log 4). -/
  pixelReady : Bool
  /-- The model's own: the sink accepts now (log 4). -/
  sinkReady  : Bool
  /-- The model's own: the pixels that changed during the present run, by PIX request number (R153; log 7). -/
  changed    : List Nat
  /-- The model's own: how many free values were used (log 7). -/
  freeNext   : Nat
  /-- The model's own: the events to come, oldest first (log 3). -/
  inputs     : List Input
deriving DecidableEq, Repr

/-- What the next turn of the machine is: a packet to decode and run in a state, or the state the turn leaves. -/
inductive Turn where
  | run (p : Packet) (s : State)
  | leave (s : State)
deriving DecidableEq, Repr

/-- The machine right after reset (spec/10_state.md R41): every register of the block at 0, nothing pending, nothing
held. SYM's 0 is the model's choice (log 6), OVERSAMPLE is the default (R5; log 1), the images are all 0 (log 2), the
environment answers and no event is waiting (logs 3, 4). -/
def State.reset : State where
  oversample := Config.defaultOversample
  single := false
  irqEn := false
  busy := false
  done := false
  cfgErr := false
  errcode := 0#4
  widthA := 0#16
  widthB := 0#16
  heightA := 0#16
  heightB := 0#16
  nlines := 0#16
  line := 0#16
  seg := 0#3
  pos := 0#10
  sub := 0#5
  sn := 0#32
  phase := 0#10
  sym := 0#8
  pixPending := false
  outHold := none
  pixels := []
  stream := []
  requests := []
  response := none
  pixelReady := true
  sinkReady := true
  changed := []
  freeNext := 0
  inputs := []

end Sys2Proof.Machine
end

