-- ==== Sys2Proof/Machine/Flags.lean ====
section
/-! DEFINITION. The flags: the interrupt level (spec/10_state.md R33), the flag updates of START and of a run's end
(R30 to R32), and the register words that show fields at their bits (spec/44_host_commands.md R114, R115, R126). -/

namespace Sys2Proof.Machine

/-- The `irq` output and STATUS.IRQ (R33, spec/60_exceptions.md R139). -/
def irq (s : State) : Bool := s.irqEn && (s.done || s.cfgErr)

/-- An accepted START clears DONE, CFG_ERR and ERRCODE before it checks (R31, R32, R113). -/
def clearOutcome (s : State) : State := { s with done := false, cfgErr := false, errcode := 0#4 }

/-- A run ends: BUSY <- 0, DONE <- 1 (R30, R31, spec/40_line_framer.md R94). -/
def finishRun (s : State) : State := { s with busy := false, done := true }

/-- The word RD_CTRL returns; START reads 0 (R16, R114). -/
def ctrlWord (s : State) : Word := 0#29 ++ BitVec.ofBool s.irqEn ++ BitVec.ofBool s.single ++ 0#1

/-- The word RD_STATUS returns (R17, R115). -/
def statusWord (s : State) : Word :=
  0#24 ++ s.errcode ++ BitVec.ofBool (irq s) ++ BitVec.ofBool s.cfgErr ++ BitVec.ofBool s.done ++ BitVec.ofBool s.busy

/-- The word RD_POSITION returns (R24, R126). -/
def positionWord (s : State) : Word := 0#11 ++ s.sub ++ 0#2 ++ s.pos ++ 0#1 ++ s.seg

end Sys2Proof.Machine
end

