-- ==== Sys2Proof/Machine/Modulator.lean ====
section
/-! DEFINITION. The carrier modulator: the phase accumulator (spec/41_carrier_modulator.md R100), the sinusoid and the
quantiser Q (R103), in exact integer arithmetic. R105 leaves the oscillator's realisation free and fixes the byte; this
one carries the sine at 30 decimals and is exact where the sine is rational (log 12). -/

namespace Sys2Proof.Machine

/-! ## Phase accumulator -/

/-- M, the phase modulus 26 × OVERSAMPLE (R100). -/
def phaseModulus (oversample : BitVec 5) : Nat := 26 * oversample.toNat

/-- The phase step: CARRIER/BAUD = 15/26 (R100). -/
def phaseStep : Nat := 15

/-- `PHASE <- (PHASE + 15) mod M` (R100). -/
def nextPhase (oversample : BitVec 5) (phase : BitVec 10) : BitVec 10 :=
  BitVec.ofNat 10 ((phase.toNat + phaseStep) % phaseModulus oversample)

/-- The phase indices a run reaches: the multiples of gcd(15, M) below M (R100). -/
def phaseReachable (oversample : BitVec 5) (phase : BitVec 10) : Bool :=
  decide (phase.toNat < phaseModulus oversample) && phase.toNat % Nat.gcd phaseStep (phaseModulus oversample) == 0

/-! ## Sinusoid -/

/-- One, in the units of the sine: 10^30. -/
def sineOne : Nat := 10 ^ 30

/-- π in the units of the sine, rounded down. -/
def sinePi : Nat := 3141592653589793238462643383279

/-- The series 1 - x²/(2n(2n+1))·(1 - x²/((2n+2)(2n+3))·(…)) in nested form, `terms` deep. -/
def sineSeries (xSquared : Nat) : (terms : Nat) → (n : Nat) → Nat
  | 0, _ => sineOne
  | terms + 1, n => sineOne - xSquared * sineSeries xSquared terms (n + 1) / (sineOne * (2 * n * (2 * n + 1)))

/-- sin(2πj/m) for j in the first quarter, 4j ≤ m; exact at the two angles of that quarter above 0 where a sine is
rational, 1/2 and 1. -/
def sineQuarter (m j : Nat) : Nat :=
  if 4 * j = m then sineOne
  else if 12 * j = m then sineOne / 2
  else
    let x := 2 * sinePi * j / m
    x * sineSeries (x * x / sineOne) 14 1 / sineOne

/-- sin(2πj/m) for j in the first half, 2j ≤ m: sin(π - a) = sin a. -/
def sineHalf (m j : Nat) : Nat :=
  if 4 * j ≤ m then sineQuarter m j else sineQuarter m (m / 2 - j)

/-- c(k) = sin(2πk/m) (R102) for k ≤ m, in units of 10^-30: sin(2π - a) = -sin a. -/
def carrierSine (m k : Nat) : Int :=
  if 2 * k ≤ m then (sineHalf m k : Int) else -(sineHalf m (m - k) : Int)

/-! ## Quantiser -/

/-- round_hu(127.5 + 0.35 v c) = 128 + floor(7 v c / 20) (R9, R103), before the clamp. -/
def quantise (v : Byte) (sine : Int) : Int :=
  128 + 7 * (v.toNat : Int) * sine / (20 * (sineOne : Int))

/-- The clamp to 0..255 of R103. -/
def clampByte (y : Int) : Byte := BitVec.ofInt 8 (max 0 (min 255 y))

/-- Q(v, k), the output byte of symbol v at phase index k (R103). -/
def modulatorByte (oversample : BitVec 5) (v : Byte) (phase : BitVec 10) : Byte :=
  clampByte (quantise v (carrierSine (phaseModulus oversample) phase.toNat))

end Sys2Proof.Machine
end

