-- ==== Sys2Proof/Machine/Memory.lean ====
section
/-! DEFINITION. The pixel space (spec/20_memory.md R42, R49) as a list of cells in one canonical form: addresses
strictly rising, no cell that holds what an unlisted pixel reads as. -/

namespace Sys2Proof.Machine

/-- What a pixel that no cell lists reads as (DESIGN CHOICE, log 2). -/
def unlistedPixel : Byte := 0#8

/-- The columns of an image (spec/00_scope.md R6). -/
def imageWidth : Nat := 909

/-- The channel bit `ch` of a pixel request (spec/30_encoding.md R76). -/
def channelNat : Channel → Nat
  | .a => 0
  | .b => 1

/-- A pixel's address: its PIX request `{ch[0], x[9:0], y[15:0]}` read as a number (R76). -/
def pixelAddr (p : PixRequest) : Nat :=
  channelNat p.ch * 2 ^ 26 + p.x.toNat * 2 ^ 16 + p.y.toNat

/-- The byte at an address. -/
def memRead : List Host.Cell → Nat → Byte
  | [], _ => unlistedPixel
  | (a, b) :: rest, n => if a = n then b else memRead rest n

/-- Store a byte at an address, keeping the canonical form. -/
def memWrite : List Host.Cell → Nat → Byte → List Host.Cell
  | [], n, v => if v = unlistedPixel then [] else [(n, v)]
  | (a, b) :: rest, n, v =>
    if n < a then
      if v = unlistedPixel then (a, b) :: rest else (n, v) :: (a, b) :: rest
    else if n = a then
      if v = unlistedPixel then rest else (a, v) :: rest
    else (a, b) :: memWrite rest n v

/-- The canonical form, with every address at least `lo`. -/
def memWfFrom : Nat → List Host.Cell → Bool
  | _, [] => true
  | lo, (a, b) :: rest => decide (lo ≤ a) && b != unlistedPixel && memWfFrom (a + 1) rest

/-- The canonical form. -/
def memWf (m : List Host.Cell) : Bool := memWfFrom 0 m

/-- The pixel byte `img_ch(x, y)` (spec/10_state.md R40). -/
def pixelAt (s : State) (p : PixRequest) : Byte := memRead s.pixels (pixelAddr p)

end Sys2Proof.Machine
end

