-- ==== Sys2Proof/Machine/Rom.lean ====
section
/-! DEFINITION. The constants of the block: the segment program ROM (spec/30_encoding.md R70), the sync codewords
(R66), the segment geometry (spec/00_scope.md R6, spec/40_line_framer.md R96) and the identification (spec/10_state.md
R27). No event writes them. -/

namespace Sys2Proof.Machine

/-! ## The segment program -/

/-- SEGDESC[n], the segment program ROM (R28, R70). -/
def segDesc (n : BitVec 3) : BitVec 16 :=
  match n.toNat with
  | 0 => 0x0027#16
  | 1 => 0x202F#16
  | 2 => 0x438D#16
  | 3 => 0x602D#16
  | 4 => 0x1027#16
  | 5 => 0x382F#16
  | 6 => 0x538D#16
  | _ => 0x702D#16

/-- `SYNC A, 39` (R70). -/
def descSyncA : Descriptor := ⟨.sync, .a, false, 39#10⟩
/-- `SPACE A, 0, 47` (R70). -/
def descSpaceA : Descriptor := ⟨.space, .a, false, 47#10⟩
/-- `IMAGE A, 909` (R70). -/
def descImageA : Descriptor := ⟨.image, .a, false, 909#10⟩
/-- `TELEM A, 45` (R70). -/
def descTelemA : Descriptor := ⟨.telem, .a, false, 45#10⟩
/-- `SYNC B, 39` (R70). -/
def descSyncB : Descriptor := ⟨.sync, .b, false, 39#10⟩
/-- `SPACE B, 255, 47` (R70). -/
def descSpaceB : Descriptor := ⟨.space, .b, true, 47#10⟩
/-- `IMAGE B, 909` (R70). -/
def descImageB : Descriptor := ⟨.image, .b, false, 909#10⟩
/-- `TELEM B, 45` (R70). -/
def descTelemB : Descriptor := ⟨.telem, .b, false, 45#10⟩

/-- The descriptor of the segment program at an index (R70). -/
def segDescriptor (n : BitVec 3) : Descriptor :=
  match n.toNat with
  | 0 => descSyncA
  | 1 => descSpaceA
  | 2 => descImageA
  | 3 => descTelemA
  | 4 => descSyncB
  | 5 => descSpaceB
  | 6 => descImageB
  | _ => descTelemB

/-- The length of the segment at an index: the LEN field of its descriptor (R69). -/
def segLen (n : BitVec 3) : Nat := (segDesc n).toNat % 1024

/-- The symbol offset at which the segment of an index begins (R70, R96). -/
def segStart (n : BitVec 3) : Nat :=
  match n.toNat with
  | 0 => 0
  | 1 => 39
  | 2 => 86
  | 3 => 995
  | 4 => 1040
  | 5 => 1079
  | 6 => 1126
  | _ => 2035

/-- The symbols of a line (R6, R96). -/
def lineSymbols : Nat := 2080

/-! ## The sync codewords -/

/-- SYNC_A, character i at bit 38-i (R66). -/
def syncCodeA : BitVec 39 := 0x0666666600#39

/-- SYNC_B, character i at bit 38-i (R66). -/
def syncCodeB : BitVec 39 := 0x0739CE739C#39

/-- The sync ROM that CH selects (R71). -/
def syncCode : Channel → BitVec 39
  | .a => syncCodeA
  | .b => syncCodeB

/-! ## The telemetry ROM -/

/-- The telemetry LUT by wedge (R35, R68). The meanings compute the formula of R92 instead; that the two agree is a
statement. -/
def telemLut (wedge : Nat) : Byte :=
  match wedge with
  | 0 => 32#8
  | 1 => 64#8
  | 2 => 96#8
  | 3 => 128#8
  | 4 => 159#8
  | 5 => 191#8
  | 6 => 223#8
  | _ => 0#8

/-! ## Identification -/

/-- The ID register's VERSION (R27). -/
def idVersion : BitVec 8 := 0x01#8

/-- The ID register: VERSION at 15:8, OVERSAMPLE at 7:0 (R27, R129). -/
def idWord (oversample : BitVec 5) : Word := 0#16 ++ idVersion ++ oversample.setWidth 8

/-! ## The configuration check's constants -/

/-- The width START accepts (R6, spec/60_exceptions.md R135). -/
def requiredWidth : Half := 909#16

/-- ERRCODE 1, WIDTH_A_INVALID (R134). -/
def errWidthA : BitVec 4 := 1#4

/-- ERRCODE 2, WIDTH_B_INVALID (R134). -/
def errWidthB : BitVec 4 := 2#4

end Sys2Proof.Machine
end

