-- ==== Sys2Proof/Machine/Operands.lean ====
section
/-! DEFINITION. The operands of the segment operations: effective heights and source channels (spec/40_line_framer.md
R83), the telemetry value (R92), the symbol of a sequencer position (R82) and the pixel request it makes (R95). -/

namespace Sys2Proof.Machine

/-- EffH (R83). -/
def effHeight (s : State) : Channel → Half
  | .a => s.heightA
  | .b => if s.single then s.heightA else s.heightB

/-- SrcCh (R83). -/
def srcChannel (s : State) : Channel → Channel
  | .a => .a
  | .b => if s.single then .a else .b

/-- round_hu of a ratio: floor(num/den + 1/2) (spec/00_scope.md R9). -/
def roundHu (num den : Nat) : Nat := (2 * num + den) / (2 * den)

/-- Telem(line) (R92). -/
def telem (line : Half) : Byte :=
  let wedge := line.toNat % 128 / 8
  if wedge < 8 then BitVec.ofNat 8 (roundHu (255 * ((wedge + 1) % 8)) 8) else 0#8

/-- The level of a codeword character or of a SPACE descriptor: 255 for 1, 0 for 0 (R67, R71). -/
def levelByte (one : Bool) : Byte := if one then 255#8 else 0#8

/-- A sync symbol: character POS of the codeword, bit 38 - POS (R67). -/
def syncSymbol (code : BitVec 39) (pos : BitVec 10) : Byte := levelByte (code.getMsbD pos.toNat)

/-- The position reads a pixel: an IMAGE position on a line below the effective height (R82, R95). -/
def inImage (d : Descriptor) (s : State) : Bool :=
  d.op == .image && decide (s.line.toNat < (effHeight s d.ch).toNat)

/-- The pixel request of an IMAGE position: column POS, row LINE of the source channel (R82, R86). -/
def pixelRequest (d : Descriptor) (s : State) : PixRequest := ⟨srcChannel s d.ch, s.pos, s.line⟩

/-- The symbol of a position that reads no pixel (R82): an IMAGE position past the effective height is black. -/
def fixedSymbol (d : Descriptor) (s : State) : Byte :=
  match d.op with
  | .sync => syncSymbol (syncCode d.ch) s.pos
  | .space => levelByte d.lvl
  | .image => 0#8
  | .telem => telem s.line

/-- Sym(d, LINE, POS) (R82), with the images as they stand. -/
def symbolOf (d : Descriptor) (s : State) : Byte :=
  if inImage d s then pixelAt s (pixelRequest d s) else fixedSymbol d s

end Sys2Proof.Machine
end

