-- ==== Sys2Proof/Machine/Ops.lean ====
section
/-! DEFINITION. The operations the meanings share: the host bus response, ConfigError and START, the stages of a
SampleStep, Reset, and the environment's events. -/

namespace Sys2Proof.Machine

/-- The three outcomes of an instruction. -/
abbrev Result := Host.Outcome State Fault Refusal

/-! ## Host bus -/

/-- A read returns a word and has no side effect (spec/20_memory.md R48, spec/30_encoding.md R73; log 8). -/
def respond (rdata : Word) (s : State) : State := { s with response := some rdata }

/-- A write has no response (R73; log 8). -/
def acknowledge (s : State) : State := { s with response := none }

/-- The low half of the write data (spec/30_encoding.md R75). -/
def lowHalf (wdata : Word) : Half := wdata.extractLsb' 0 16

/-- A configuration register's write: `update` happens while BUSY = 0 and is ignored while BUSY = 1
(spec/70_reset_and_hazards.md R151). -/
def writeIdle (update : State → State) (s : State) : State :=
  if s.busy then acknowledge s else acknowledge (update s)

/-! ## ConfigError and START -/

/-- CheckConfig: the code of the failure, width A first (spec/60_exceptions.md R135). -/
def checkConfig (s : State) : Option (BitVec 4) :=
  if s.widthA ≠ requiredWidth then some errWidthA
  else if s.single = false ∧ s.widthB ≠ requiredWidth then some errWidthB
  else none

/-- `raise ConfigError(code)`, the block's one exception: it records CFG_ERR and ERRCODE and changes nothing else
(spec/60_exceptions.md R134, R136). No operation returns from it (R137). -/
def raiseConfigError (code : BitVec 4) (s : State) : State := { s with cfgErr := true, errcode := code }

/-- max of two line counts (spec/00_scope.md R8). -/
def maxHalf (a b : Half) : Half := if a.toNat < b.toNat then b else a

/-- The number of lines of a run (spec/40_line_framer.md R93). -/
def runLines (s : State) : Half := maxHalf (effHeight s .a) (effHeight s .b)

/-- An error-free START: NLINES latched, position, SN and PHASE at 0, and BUSY, or DONE for a run without lines
(spec/44_host_commands.md R113). The images of the run are those that stand now (log 7). -/
def beginRun (s : State) : State :=
  { s with
    nlines := runLines s
    line := 0#16
    seg := 0#3
    pos := 0#10
    sub := 0#5
    sn := 0#32
    phase := 0#10
    changed := []
    busy := decide (runLines s ≠ 0#16)
    done := decide (runLines s = 0#16) }

/-- START() (spec/44_host_commands.md R113). -/
def startRun (s : State) : State :=
  let cleared := clearOutcome s
  match checkConfig cleared with
  | some code => raiseConfigError code cleared
  | none => beginRun cleared

/-- The effect of WR_CTRL: IRQ_EN always; SINGLE and START while BUSY = 0, START seeing the new SINGLE
(spec/44_host_commands.md R112). -/
def writeCtrl (wdata : Word) (s : State) : State :=
  let enabled := acknowledge { s with irqEn := wdata.getLsbD 2 }
  if enabled.busy then enabled
  else
    let configured := { enabled with single := wdata.getLsbD 1 }
    if wdata.getLsbD 0 then startRun configured else configured

/-! ## Stages of a SampleStep (spec/41_carrier_modulator.md R107; log 5) -/

/-- Advance(): the program counter moves by one sample (spec/40_line_framer.md R94). -/
def advance (d : Descriptor) (s : State) : State :=
  if s.sub.toNat + 1 < s.oversample.toNat then { s with sub := s.sub + 1#5 }
  else if s.pos.toNat + 1 < d.len.toNat then { s with sub := 0#5, pos := s.pos + 1#10 }
  else if s.seg.toNat < 7 then { s with sub := 0#5, pos := 0#10, seg := s.seg + 1#3 }
  else if s.line + 1#16 = s.nlines then
    finishRun { s with sub := 0#5, pos := 0#10, seg := 0#3, line := s.line + 1#16 }
  else { s with sub := 0#5, pos := 0#10, seg := 0#3, line := s.line + 1#16 }

/-- The sink accepts the held byte: it joins the output stream, and SN, PHASE and the position advance with the
acceptance (spec/20_memory.md R53). -/
def commitSample (d : Descriptor) (byte : Byte) (s : State) : State :=
  advance d
    { s with
      outHold := none
      stream := s.stream ++ [byte]
      sn := s.sn + 1#32
      phase := nextPhase s.oversample s.phase }

/-- The second half of Emit(b): the held byte waits until the sink accepts it (R53). -/
def offerSample (d : Descriptor) (s : State) : State :=
  match s.outHold with
  | some byte => if s.sinkReady then commitSample d byte s else s
  | none => s

/-- The first half of Emit(b): the byte Q(SYM, PHASE) is presented in OUT_HOLD (R53, R103). -/
def holdSample (s : State) : State :=
  { s with outHold := some (modulatorByte s.oversample s.sym s.phase) }

/-- A PixRead's request is issued, unless it is outstanding already (spec/20_memory.md R50, R52). -/
def issueRequest (d : Descriptor) (s : State) : State :=
  if s.pixPending then s
  else { s with pixPending := true, requests := s.requests ++ [pixelRequest d s] }

/-- A PixRead's response is latched as the symbol: the pixel, or a free value if the pixel changed during the run
(R50, spec/70_reset_and_hazards.md R153; log 7). -/
def takeResponse (d : Descriptor) (s : State) : State :=
  if pixelAddr (pixelRequest d s) ∈ s.changed then
    { s with pixPending := false, sym := Config.freePixel s.freeNext, freeNext := s.freeNext + 1 }
  else { s with pixPending := false, sym := pixelAt s (pixelRequest d s) }

/-- SYM is loaded at SUB = 0 and held for the other samples of the symbol (spec/40_line_framer.md R95). -/
def loadSymbol (d : Descriptor) (s : State) : State :=
  if s.sub = 0#5 then { s with sym := fixedSymbol d s } else s

/-- The step needs a PixRead: SUB = 0 of an IMAGE position below the effective height (R95). -/
def needsPixel (d : Descriptor) (s : State) : Bool := decide (s.sub = 0#5) && inImage d s

/-- What a SampleStep does in one slot: it goes on with a byte the sink has not accepted, or with a request the pixel
source has not answered, or begins; it stops where it must wait (R107, R50, R53). -/
def workSample (d : Descriptor) (s : State) : State :=
  match s.outHold with
  | some _ => offerSample d s
  | none =>
    if needsPixel d s then
      let asked := issueRequest d s
      if asked.pixelReady then offerSample d (holdSample (takeResponse d asked)) else asked
    else offerSample d (holdSample (loadSymbol d s))

/-- SampleStep at a descriptor, enabled exactly when BUSY = 1 (R107). PHASE and POS outside their ranges fault (logs
13, 14); no run reaches them. -/
def sampleStep (d : Descriptor) (s : State) : Result :=
  if s.busy = false then .next s
  else if phaseReachable s.oversample s.phase = false then .fault .phaseUnreachable
  else if d.len.toNat ≤ s.pos.toNat then .fault .positionOutsideSegment
  else .next (workSample d s)

/-! ## Reset and the other events -/

/-- Reset: every element of the block takes its reset value; the launch parameters, what the sink and the pixel source
have received, the environment and the events to come stay (spec/70_reset_and_hazards.md R147, R148; log 10). -/
def resetBlock (s : State) : State :=
  { State.reset with
    oversample := s.oversample
    pixels := s.pixels
    stream := s.stream
    requests := s.requests
    pixelReady := s.pixelReady
    sinkReady := s.sinkReady
    changed := s.changed
    freeNext := s.freeNext
    inputs := s.inputs }

/-- A pixel of the pixel source changes; during a run it is marked as changed (spec/20_memory.md R56; log 7). A column
past the image is no pixel (R49). -/
def changePixel (p : PixRequest) (byte : Byte) (s : State) : State :=
  if imageWidth ≤ p.x.toNat then s
  else if pixelAt s p = byte then s
  else
    { s with
      pixels := memWrite s.pixels (pixelAddr p) byte
      changed := if s.busy && !s.changed.contains (pixelAddr p) then pixelAddr p :: s.changed else s.changed }

end Sys2Proof.Machine
end

