-- ==== Sys2Proof/Machine/Framer.lean ====
section
/-! DEFINITION. The meanings of the eight segment operations (spec/40_line_framer.md R84 to R91): one SampleStep at the
operation's descriptor (R82, spec/41_carrier_modulator.md R107). -/

namespace Sys2Proof.Machine

/-- SYNC_A (R84). -/
def execSyncA (s : State) : Result := sampleStep descSyncA s

/-- SPACE_A (R85). -/
def execSpaceA (s : State) : Result := sampleStep descSpaceA s

/-- IMAGE_A (R86). -/
def execImageA (s : State) : Result := sampleStep descImageA s

/-- TELEM_A (R87). -/
def execTelemA (s : State) : Result := sampleStep descTelemA s

/-- SYNC_B (R88). -/
def execSyncB (s : State) : Result := sampleStep descSyncB s

/-- SPACE_B (R89). -/
def execSpaceB (s : State) : Result := sampleStep descSpaceB s

/-- IMAGE_B (R90). -/
def execImageB (s : State) : Result := sampleStep descImageB s

/-- TELEM_B (R91). -/
def execTelemB (s : State) : Result := sampleStep descTelemB s

end Sys2Proof.Machine
end

