-- ==== Sys2Proof/Machine/HostOps.lean ====
section
/-! DEFINITION. The meanings of the host operations (spec/44_host_commands.md R112 to R132). A read answers a word and
changes nothing of the block (spec/20_memory.md R48); no host operation raises an error (R111). -/

namespace Sys2Proof.Machine

/-! ## Control and configuration writes -/

/-- WR_CTRL, with START (R112, R113). -/
def execWrCtrl (wdata : Word) (s : State) : Result := .next (writeCtrl wdata s)

/-- WR_WIDTH_A (R116): wdata[15:0], while BUSY = 0. -/
def execWrWidthA (wdata : Word) (s : State) : Result :=
  .next (writeIdle (fun t => { t with widthA := lowHalf wdata }) s)

/-- WR_WIDTH_B (R118): wdata[15:0], while BUSY = 0. -/
def execWrWidthB (wdata : Word) (s : State) : Result :=
  .next (writeIdle (fun t => { t with widthB := lowHalf wdata }) s)

/-- WR_HEIGHT_A (R120): wdata[15:0], while BUSY = 0. -/
def execWrHeightA (wdata : Word) (s : State) : Result :=
  .next (writeIdle (fun t => { t with heightA := lowHalf wdata }) s)

/-- WR_HEIGHT_B (R122): wdata[15:0], while BUSY = 0. -/
def execWrHeightB (wdata : Word) (s : State) : Result :=
  .next (writeIdle (fun t => { t with heightB := lowHalf wdata }) s)

/-! ## Reads -/

/-- RD_CTRL (R114). -/
def execRdCtrl (s : State) : Result := .next (respond (ctrlWord s) s)

/-- RD_STATUS (R115). -/
def execRdStatus (s : State) : Result := .next (respond (statusWord s) s)

/-- RD_WIDTH_A (R117). -/
def execRdWidthA (s : State) : Result := .next (respond (s.widthA.setWidth 32) s)

/-- RD_WIDTH_B (R119). -/
def execRdWidthB (s : State) : Result := .next (respond (s.widthB.setWidth 32) s)

/-- RD_HEIGHT_A (R121). -/
def execRdHeightA (s : State) : Result := .next (respond (s.heightA.setWidth 32) s)

/-- RD_HEIGHT_B (R123). -/
def execRdHeightB (s : State) : Result := .next (respond (s.heightB.setWidth 32) s)

/-- RD_NLINES (R124). -/
def execRdNlines (s : State) : Result := .next (respond (s.nlines.setWidth 32) s)

/-- RD_LINE (R125). -/
def execRdLine (s : State) : Result := .next (respond (s.line.setWidth 32) s)

/-- RD_POSITION (R126). -/
def execRdPosition (s : State) : Result := .next (respond (positionWord s) s)

/-- RD_SN (R127). -/
def execRdSn (s : State) : Result := .next (respond s.sn s)

/-- RD_PHASE (R128). -/
def execRdPhase (s : State) : Result := .next (respond (s.phase.setWidth 32) s)

/-- RD_ID (R129). -/
def execRdId (s : State) : Result := .next (respond (idWord s.oversample) s)

/-- RD_SEGDESC: SEGDESC[n], zero-extended (R130). -/
def execRdSegdesc (n : BitVec 3) (s : State) : Result := .next (respond ((segDesc n).setWidth 32) s)

/-- RD_UNMAPPED: 0 (R132, spec/20_memory.md R45, R46). -/
def execRdUnmapped (_addr : BitVec 8) (s : State) : Result := .next (respond 0#32 s)

/-! ## Writes without effect -/

/-- WR_RO to STATUS: no state changes (R131). -/
def execWrRoStatus (_wdata : Word) (s : State) : Result := .next (acknowledge s)

/-- WR_RO to NLINES: no state changes (R131). -/
def execWrRoNlines (_wdata : Word) (s : State) : Result := .next (acknowledge s)

/-- WR_RO to LINE: no state changes (R131). -/
def execWrRoLine (_wdata : Word) (s : State) : Result := .next (acknowledge s)

/-- WR_RO to POSITION: no state changes (R131). -/
def execWrRoPosition (_wdata : Word) (s : State) : Result := .next (acknowledge s)

/-- WR_RO to SN: no state changes (R131). -/
def execWrRoSn (_wdata : Word) (s : State) : Result := .next (acknowledge s)

/-- WR_RO to PHASE: no state changes (R131). -/
def execWrRoPhase (_wdata : Word) (s : State) : Result := .next (acknowledge s)

/-- WR_RO to ID: no state changes (R131). -/
def execWrRoId (_wdata : Word) (s : State) : Result := .next (acknowledge s)

/-- WR_RO to SEGDESC[n]: no state changes (R131). -/
def execWrRoSegdesc (_n : BitVec 3) (_wdata : Word) (s : State) : Result := .next (acknowledge s)

/-- WR_UNMAPPED: no state changes (R132, spec/20_memory.md R46). -/
def execWrUnmapped (_addr : BitVec 8) (_wdata : Word) (s : State) : Result := .next (acknowledge s)

end Sys2Proof.Machine
end

