-- ==== Sys2Proof/Machine/Dispatch.lean ====
section
/-! DEFINITION. exec: one arm per instruction. -/

namespace Sys2Proof.Machine

def exec (i : Instr) (s : State) : Host.Outcome State Fault Refusal :=
  match i with
  | .syncA => Sys2Proof.Machine.execSyncA s
  | .spaceA => Sys2Proof.Machine.execSpaceA s
  | .imageA => Sys2Proof.Machine.execImageA s
  | .telemA => Sys2Proof.Machine.execTelemA s
  | .syncB => Sys2Proof.Machine.execSyncB s
  | .spaceB => Sys2Proof.Machine.execSpaceB s
  | .imageB => Sys2Proof.Machine.execImageB s
  | .telemB => Sys2Proof.Machine.execTelemB s
  | .wrCtrl wdata => Sys2Proof.Machine.execWrCtrl wdata s
  | .rdCtrl => Sys2Proof.Machine.execRdCtrl s
  | .rdStatus => Sys2Proof.Machine.execRdStatus s
  | .wrWidthA wdata => Sys2Proof.Machine.execWrWidthA wdata s
  | .rdWidthA => Sys2Proof.Machine.execRdWidthA s
  | .wrWidthB wdata => Sys2Proof.Machine.execWrWidthB wdata s
  | .rdWidthB => Sys2Proof.Machine.execRdWidthB s
  | .wrHeightA wdata => Sys2Proof.Machine.execWrHeightA wdata s
  | .rdHeightA => Sys2Proof.Machine.execRdHeightA s
  | .wrHeightB wdata => Sys2Proof.Machine.execWrHeightB wdata s
  | .rdHeightB => Sys2Proof.Machine.execRdHeightB s
  | .rdNlines => Sys2Proof.Machine.execRdNlines s
  | .rdLine => Sys2Proof.Machine.execRdLine s
  | .rdPosition => Sys2Proof.Machine.execRdPosition s
  | .rdSn => Sys2Proof.Machine.execRdSn s
  | .rdPhase => Sys2Proof.Machine.execRdPhase s
  | .rdId => Sys2Proof.Machine.execRdId s
  | .rdSegdesc n => Sys2Proof.Machine.execRdSegdesc n s
  | .wrRoStatus wdata => Sys2Proof.Machine.execWrRoStatus wdata s
  | .wrRoNlines wdata => Sys2Proof.Machine.execWrRoNlines wdata s
  | .wrRoLine wdata => Sys2Proof.Machine.execWrRoLine wdata s
  | .wrRoPosition wdata => Sys2Proof.Machine.execWrRoPosition wdata s
  | .wrRoSn wdata => Sys2Proof.Machine.execWrRoSn wdata s
  | .wrRoPhase wdata => Sys2Proof.Machine.execWrRoPhase wdata s
  | .wrRoId wdata => Sys2Proof.Machine.execWrRoId wdata s
  | .wrRoSegdesc n wdata => Sys2Proof.Machine.execWrRoSegdesc n wdata s
  | .rdUnmapped addr => Sys2Proof.Machine.execRdUnmapped addr s
  | .wrUnmapped addr wdata => Sys2Proof.Machine.execWrUnmapped addr wdata s

end Sys2Proof.Machine
end

