-- ==== Sys2Proof/Machine/Fetch.lean ====
section
/-! DEFINITION. What the next turn of the machine runs: the next event of the list of inputs, or, with no event
waiting, the SampleStep a run enables (spec/00_scope.md R11; log 3). -/

namespace Sys2Proof.Machine

/-- A SampleStep fetches SEGDESC[SEG] (spec/41_carrier_modulator.md R107); none is enabled while BUSY = 0, and the
idle block holds its state (spec/60_exceptions.md R146). -/
def sampleTurn (s : State) : Turn := if s.busy then .run (.seg (segDesc s.seg)) s else .leave s

/-- The turn of one event. -/
def eventTurn (e : Event) (s : State) : Turn :=
  match e with
  | .host r => .run (.hb r) s
  | .sample => sampleTurn s
  | .pixelSource ready => .leave { s with pixelReady := ready }
  | .sink ready => .leave { s with sinkReady := ready }
  | .imageChange p byte => .leave (changePixel p byte s)
  | .lateResponse _ => .leave s

/-- The next turn. A Reset comes before an event of the same time, which then sees the reset state
(spec/70_reset_and_hazards.md R147). -/
def nextTurn (s : State) : Turn :=
  match s.inputs with
  | [] => sampleTurn s
  | .event e :: rest => eventTurn e { s with inputs := rest }
  | .reset none :: rest => .leave (resetBlock { s with inputs := rest })
  | .reset (some e) :: rest => .leave (resetBlock { s with inputs := .event e :: rest })

/-- The segment index whose descriptor a packet is, as the ROM holds it (R70). -/
def segmentIndex (word : BitVec 16) : Option (BitVec 3) :=
  [0#3, 1#3, 2#3, 3#3, 4#3, 5#3, 6#3, 7#3].find? fun n => segDesc n == word

/-- The state in which the very next turn runs a packet: a host request becomes the first event; a descriptor of the
ROM is selected by SEG, with BUSY = 1 and a slot as the first event (log 17). -/
def placePacket (p : Packet) (s : State) : State :=
  match p with
  | .hb r => { s with inputs := .event (.host r) :: s.inputs }
  | .seg word =>
    match segmentIndex word with
    | some n => { s with seg := n, busy := true, inputs := .event .sample :: s.inputs }
    | none => s

end Sys2Proof.Machine
end

