-- ==== Sys2Proof/Machine/Step.lean ====
section
/-! DEFINITION. One step of the machine: the next turn, its packet decoded and run. -/

namespace Sys2Proof.Machine

/-- Decode a packet and run its instruction; a refused descriptor is a refusal (spec/30_encoding.md R72). -/
def runPacket (p : Packet) (s : State) : Host.Outcome State Fault Refusal :=
  match decode p with
  | .instr i => exec i s
  | .rejected why => .refused (.descriptorRejected why)

/-- One step (spec/00_scope.md R11). -/
def step (s : State) : Host.Outcome State Fault Refusal :=
  match nextTurn s with
  | .run p t => runPacket p t
  | .leave t => .next t

/-- The state whose very next step runs the instruction of a table word (log 17); a word that is no instruction leaves
the state as it is. -/
def State.withFetchWord (s : State) (nbits w : Nat) : State :=
  match decodeTableWord nbits w with
  | some i => placePacket (encode i) s
  | none => s

end Sys2Proof.Machine
end

