-- ==== Sys2Proof/Machine/SpecTables.lean ====
section
/-! DEFINITION. The output byte tables of the spec, as data: spec/42_modulator_table_os3.md R109 and
spec/43_modulator_table_os9.md R110. The meanings compute Q (Modulator.lean); that Q is these tables is stated. A row is
one number, Q(v, k) its byte v from the least significant end. -/

namespace Sys2Proof.Machine

/-- Byte v of a row. -/
def rowByte (row : Nat) (v : Byte) : Byte := BitVec.ofNat 8 (row >>> (8 * v.toNat))

/-- Rows k = 0 to 36 of R109. -/
def tableOs3Part0 : List Nat :=
  [0x80808080808080808080808080808080808080808080808080808080808080808080808080808080808080808080808080808080808080808080808080808080808080808080808080808080808080808080808080808080808080808080808080808080808080808080808080808080808080808080808080808080808080808080808080808080808080808080808080808080808080808080808080808080808080808080808080808080808080808080808080808080808080808080808080808080808080808080808080808080808080808080808080808080808080808080808080808080808080808080808080808080808080808080808080808080,
   0x959595959594949494949494949494949493939393939393939393939392929292929292929292929291919191919191919191919190909090909090909090908f8f8f8f8f8f8f8f8f8f8f8f8e8e8e8e8e8e8e8e8e8e8e8e8d8d8d8d8d8d8d8d8d8d8d8d8c8c8c8c8c8c8c8c8c8c8c8c8b8b8b8b8b8b8b8b8b8b8b8b8a8a8a8a8a8a8a8a8a8a8a8a898989898989898989898989888888888888888888888888878787878787878787878787868686868686868686868686858585858585858585858585848484848484848484848484838383838383838383838383828282828282828282828282818181818181818181818181808080808080808080808080,
   0xa9a9a9a8a8a8a8a8a8a8a7a7a7a7a7a7a6a6a6a6a6a6a5a5a5a5a5a5a4a4a4a4a4a4a3a3a3a3a3a3a2a2a2a2a2a2a1a1a1a1a1a1a1a0a0a0a0a0a09f9f9f9f9f9f9e9e9e9e9e9e9d9d9d9d9d9d9c9c9c9c9c9c9b9b9b9b9b9b9b9a9a9a9a9a9a999999999999989898989898979797979797969696969696959595959595949494949494949393939393939292929292929191919191919090909090908f8f8f8f8f8f8e8e8e8e8e8e8d8d8d8d8d8d8d8c8c8c8c8c8c8b8b8b8b8b8b8a8a8a8a8a8a8989898989898888888888888787878787878686868686868685858585858584848484848483838383838382828282828281818181818180808080808080,
   0xbbbababababab9b9b9b9b8b8b8b8b7b7b7b7b7b6b6b6b6b5b5b5b5b4b4b4b4b3b3b3b3b3b2b2b2b2b1b1b1b1b0b0b0b0b0afafafafaeaeaeaeadadadadadacacacacababababaaaaaaaaaaa9a9a9a9a8a8a8a8a7a7a7a7a6a6a6a6a6a5a5a5a5a4a4a4a4a3a3a3a3a3a2a2a2a2a1a1a1a1a0a0a0a0a09f9f9f9f9e9e9e9e9d9d9d9d9d9c9c9c9c9b9b9b9b9a9a9a9a99999999999898989897979797969696969695959595949494949393939393929292929191919190909090908f8f8f8f8e8e8e8e8d8d8d8d8c8c8c8c8c8b8b8b8b8a8a8a8a8989898989888888888787878786868686868585858584848484838383838382828282818181818080808080,
   0xc9c9c8c8c8c8c7c7c7c6c6c6c5c5c5c5c4c4c4c3c3c3c3c2c2c2c1c1c1c1c0c0c0bfbfbfbfbebebebdbdbdbdbcbcbcbbbbbbbbbababab9b9b9b9b8b8b8b7b7b7b7b6b6b6b5b5b5b5b4b4b4b3b3b3b2b2b2b2b1b1b1b0b0b0b0afafafaeaeaeaeadadadacacacacabababaaaaaaaaa9a9a9a8a8a8a8a7a7a7a6a6a6a6a5a5a5a4a4a4a4a3a3a3a2a2a2a1a1a1a1a0a0a09f9f9f9f9e9e9e9d9d9d9d9c9c9c9b9b9b9b9a9a9a99999999989898979797979696969595959594949493939393929292919191909090908f8f8f8e8e8e8e8d8d8d8c8c8c8c8b8b8b8a8a8a8a8989898888888887878786868686858585848484848383838282828281818180808080,
   0xd3d3d2d2d2d1d1d1d0d0d0cfcfcfcecececdcdcdcccccccbcbcbcacacac9c9c9c8c8c8c7c7c7c7c6c6c6c5c5c5c4c4c4c3c3c3c2c2c2c1c1c1c0c0c0bfbfbfbebebebdbdbdbcbcbcbbbbbbbababab9b9b9b8b8b8b7b7b7b6b6b6b5b5b5b5b4b4b4b3b3b3b2b2b2b1b1b1b0b0b0afafafaeaeaeadadadacacacabababaaaaaaa9a9a9a8a8a8a7a7a7a6a6a6a5a5a5a4a4a4a3a3a3a3a2a2a2a1a1a1a0a0a09f9f9f9e9e9e9d9d9d9c9c9c9b9b9b9a9a9a999999989898979797969696959595949494939393929292919191919090908f8f8f8e8e8e8d8d8d8c8c8c8b8b8b8a8a8a89898988888887878786868685858584848483838382828281818180808080,
   0xd8d8d7d7d7d6d6d6d5d5d5d4d4d4d3d3d3d2d2d1d1d1d0d0d0cfcfcfcecececdcdcdcccccccbcbcbcacacac9c9c8c8c8c7c7c7c6c6c6c5c5c5c4c4c4c3c3c3c2c2c2c1c1c0c0c0bfbfbfbebebebdbdbdbcbcbcbbbbbbbababab9b9b8b8b8b7b7b7b6b6b6b5b5b5b4b4b4b3b3b3b2b2b2b1b1b0b0b0afafafaeaeaeadadadacacacabababaaaaaaa9a9a8a8a8a7a7a7a6a6a6a5a5a5a4a4a4a3a3a3a2a2a2a1a1a1a0a09f9f9f9e9e9e9d9d9d9c9c9c9b9b9b9a9a9a999999989897979796969695959594949493939392929291919190908f8f8f8e8e8e8d8d8d8c8c8c8b8b8b8a8a8a8989898888878787868686858585848484838383828282818181808080,
   0xd8d8d7d7d7d6d6d6d5d5d5d4d4d4d3d3d3d2d2d1d1d1d0d0d0cfcfcfcecececdcdcdcccccccbcbcbcacacac9c9c8c8c8c7c7c7c6c6c6c5c5c5c4c4c4c3c3c3c2c2c2c1c1c0c0c0bfbfbfbebebebdbdbdbcbcbcbbbbbbbababab9b9b8b8b8b7b7b7b6b6b6b5b5b5b4b4b4b3b3b3b2b2b2b1b1b0b0b0afafafaeaeaeadadadacacacabababaaaaaaa9a9a8a8a8a7a7a7a6a6a6a5a5a5a4a4a4a3a3a3a2a2a2a1a1a1a0a09f9f9f9e9e9e9d9d9d9c9c9c9b9b9b9a9a9a999999989897979796969695959594949493939392929291919190908f8f8f8e8e8e8d8d8d8c8c8c8b8b8b8a8a8a8989898888878787868686858585848484838383828282818181808080,
   0xd3d3d2d2d2d1d1d1d0d0d0cfcfcfcecececdcdcdcccccccbcbcbcacacac9c9c9c8c8c8c7c7c7c7c6c6c6c5c5c5c4c4c4c3c3c3c2c2c2c1c1c1c0c0c0bfbfbfbebebebdbdbdbcbcbcbbbbbbbababab9b9b9b8b8b8b7b7b7b6b6b6b5b5b5b5b4b4b4b3b3b3b2b2b2b1b1b1b0b0b0afafafaeaeaeadadadacacacabababaaaaaaa9a9a9a8a8a8a7a7a7a6a6a6a5a5a5a4a4a4a3a3a3a3a2a2a2a1a1a1a0a0a09f9f9f9e9e9e9d9d9d9c9c9c9b9b9b9a9a9a999999989898979797969696959595949494939393929292919191919090908f8f8f8e8e8e8d8d8d8c8c8c8b8b8b8a8a8a89898988888887878786868685858584848483838382828281818180808080,
   0xc9c9c8c8c8c8c7c7c7c6c6c6c5c5c5c5c4c4c4c3c3c3c3c2c2c2c1c1c1c1c0c0c0bfbfbfbfbebebebdbdbdbdbcbcbcbbbbbbbbbababab9b9b9b9b8b8b8b7b7b7b7b6b6b6b5b5b5b5b4b4b4b3b3b3b2b2b2b2b1b1b1b0b0b0b0afafafaeaeaeaeadadadacacacacabababaaaaaaaaa9a9a9a8a8a8a8a7a7a7a6a6a6a6a5a5a5a4a4a4a4a3a3a3a2a2a2a1a1a1a1a0a0a09f9f9f9f9e9e9e9d9d9d9d9c9c9c9b9b9b9b9a9a9a99999999989898979797979696969595959594949493939393929292919191909090908f8f8f8e8e8e8e8d8d8d8c8c8c8c8b8b8b8a8a8a8a8989898888888887878786868686858585848484848383838282828281818180808080,
   0xbbbababababab9b9b9b9b8b8b8b8b7b7b7b7b7b6b6b6b6b5b5b5b5b4b4b4b4b3b3b3b3b3b2b2b2b2b1b1b1b1b0b0b0b0b0afafafafaeaeaeaeadadadadadacacacacababababaaaaaaaaaaa9a9a9a9a8a8a8a8a7a7a7a7a6a6a6a6a6a5a5a5a5a4a4a4a4a3a3a3a3a3a2a2a2a2a1a1a1a1a0a0a0a0a09f9f9f9f9e9e9e9e9d9d9d9d9d9c9c9c9c9b9b9b9b9a9a9a9a99999999999898989897979797969696969695959595949494949393939393929292929191919190909090908f8f8f8f8e8e8e8e8d8d8d8d8c8c8c8c8c8b8b8b8b8a8a8a8a8989898989888888888787878786868686868585858584848484838383838382828282818181818080808080,
   0xa9a9a9a8a8a8a8a8a8a8a7a7a7a7a7a7a6a6a6a6a6a6a5a5a5a5a5a5a4a4a4a4a4a4a3a3a3a3a3a3a2a2a2a2a2a2a1a1a1a1a1a1a1a0a0a0a0a0a09f9f9f9f9f9f9e9e9e9e9e9e9d9d9d9d9d9d9c9c9c9c9c9c9b9b9b9b9b9b9b9a9a9a9a9a9a999999999999989898989898979797979797969696969696959595959595949494949494949393939393939292929292929191919191919090909090908f8f8f8f8f8f8e8e8e8e8e8e8d8d8d8d8d8d8d8c8c8c8c8c8c8b8b8b8b8b8b8a8a8a8a8a8a8989898989898888888888888787878787878686868686868685858585858584848484848483838383838382828282828281818181818180808080808080,
   0x959595959594949494949494949494949493939393939393939393939392929292929292929292929291919191919191919191919190909090909090909090908f8f8f8f8f8f8f8f8f8f8f8f8e8e8e8e8e8e8e8e8e8e8e8e8d8d8d8d8d8d8d8d8d8d8d8d8c8c8c8c8c8c8c8c8c8c8c8c8b8b8b8b8b8b8b8b8b8b8b8b8a8a8a8a8a8a8a8a8a8a8a8a898989898989898989898989888888888888888888888888878787878787878787878787868686868686868686868686858585858585858585858585848484848484848484848484838383838383838383838383828282828282828282828282818181818181818181818181808080808080808080808080]

/-- Rows k = 39 to 75 of R109. -/
def tableOs3Part1 : List Nat :=
  [0x80808080808080808080808080808080808080808080808080808080808080808080808080808080808080808080808080808080808080808080808080808080808080808080808080808080808080808080808080808080808080808080808080808080808080808080808080808080808080808080808080808080808080808080808080808080808080808080808080808080808080808080808080808080808080808080808080808080808080808080808080808080808080808080808080808080808080808080808080808080808080808080808080808080808080808080808080808080808080808080808080808080808080808080808080808080,
   0x6a6a6a6a6a6b6b6b6b6b6b6b6b6b6b6b6b6c6c6c6c6c6c6c6c6c6c6c6c6d6d6d6d6d6d6d6d6d6d6d6d6e6e6e6e6e6e6e6e6e6e6e6e6f6f6f6f6f6f6f6f6f6f6f7070707070707070707070707171717171717171717171717272727272727272727272727373737373737373737373737474747474747474747474747575757575757575757575757676767676767676767676767777777777777777777777777878787878787878787878787979797979797979797979797a7a7a7a7a7a7a7a7a7a7a7a7b7b7b7b7b7b7b7b7b7b7b7b7c7c7c7c7c7c7c7c7c7c7c7c7d7d7d7d7d7d7d7d7d7d7d7d7e7e7e7e7e7e7e7e7e7e7e7e7f7f7f7f7f7f7f7f7f7f7f80,
   0x565656575757575757575858585858585959595959595a5a5a5a5a5a5b5b5b5b5b5b5c5c5c5c5c5c5d5d5d5d5d5d5e5e5e5e5e5e5e5f5f5f5f5f5f606060606060616161616161626262626262636363636363646464646464646565656565656666666666666767676767676868686868686969696969696a6a6a6a6a6a6b6b6b6b6b6b6b6c6c6c6c6c6c6d6d6d6d6d6d6e6e6e6e6e6e6f6f6f6f6f6f70707070707071717171717172727272727272737373737373747474747474757575757575767676767676777777777777787878787878797979797979797a7a7a7a7a7a7b7b7b7b7b7b7c7c7c7c7c7c7d7d7d7d7d7d7e7e7e7e7e7e7f7f7f7f7f7f80,
   0x44454545454546464646474747474848484848494949494a4a4a4a4b4b4b4b4c4c4c4c4c4d4d4d4d4e4e4e4e4f4f4f4f4f505050505151515152525252525353535354545454555555555556565656575757575858585859595959595a5a5a5a5b5b5b5b5c5c5c5c5c5d5d5d5d5e5e5e5e5f5f5f5f5f606060606161616162626262626363636364646464656565656666666666676767676868686869696969696a6a6a6a6b6b6b6b6c6c6c6c6c6d6d6d6d6e6e6e6e6f6f6f6f6f707070707171717172727272737373737374747474757575757676767676777777777878787879797979797a7a7a7a7b7b7b7b7c7c7c7c7c7d7d7d7d7e7e7e7e7f7f7f7f80,
   0x3636373737373838383939393a3a3a3a3b3b3b3c3c3c3c3d3d3d3e3e3e3e3f3f3f40404040414141424242424343434444444445454546464646474747484848484949494a4a4a4a4b4b4b4c4c4c4d4d4d4d4e4e4e4f4f4f4f50505051515151525252535353535454545555555556565657575757585858595959595a5a5a5b5b5b5b5c5c5c5d5d5d5e5e5e5e5f5f5f60606060616161626262626363636464646465656566666666676767686868686969696a6a6a6a6b6b6b6c6c6c6c6d6d6d6e6e6e6f6f6f6f70707071717171727272737373737474747575757576767677777777787878797979797a7a7a7b7b7b7b7c7c7c7d7d7d7d7e7e7e7f7f7f80,
   0x2c2c2d2d2d2e2e2e2f2f2f303030313131323232333333343434353535363636373737383838383939393a3a3a3b3b3b3c3c3c3d3d3d3e3e3e3f3f3f4040404141414242424343434444444545454646464747474848484949494a4a4a4a4b4b4b4c4c4c4d4d4d4e4e4e4f4f4f5050505151515252525353535454545555555656565757575858585959595a5a5a5b5b5b5c5c5c5c5d5d5d5e5e5e5f5f5f6060606161616262626363636464646565656666666767676868686969696a6a6a6b6b6b6c6c6c6d6d6d6e6e6e6e6f6f6f7070707171717272727373737474747575757676767777777878787979797a7a7a7b7b7b7c7c7c7d7d7d7e7e7e7f7f7f80,
   0x27272828282929292a2a2a2b2b2b2c2c2c2d2d2e2e2e2f2f2f30303031313132323233333334343435353536363737373838383939393a3a3a3b3b3b3c3c3c3d3d3d3e3e3f3f3f40404041414142424243434344444445454546464747474848484949494a4a4a4b4b4b4c4c4c4d4d4d4e4e4f4f4f50505051515152525253535354545455555556565757575858585959595a5a5a5b5b5b5c5c5c5d5d5d5e5e5e5f5f60606061616162626263636364646465656566666667676868686969696a6a6a6b6b6b6c6c6c6d6d6d6e6e6e6f6f70707071717172727273737374747475757576767677777878787979797a7a7a7b7b7b7c7c7c7d7d7d7e7e7e7f7f80,
   0x27272828282929292a2a2a2b2b2b2c2c2c2d2d2e2e2e2f2f2f30303031313132323233333334343435353536363737373838383939393a3a3a3b3b3b3c3c3c3d3d3d3e3e3f3f3f40404041414142424243434344444445454546464747474848484949494a4a4a4b4b4b4c4c4c4d4d4d4e4e4f4f4f50505051515152525253535354545455555556565757575858585959595a5a5a5b5b5b5c5c5c5d5d5d5e5e5e5f5f60606061616162626263636364646465656566666667676868686969696a6a6a6b6b6b6c6c6c6d6d6d6e6e6e6f6f70707071717172727273737374747475757576767677777878787979797a7a7a7b7b7b7c7c7c7d7d7d7e7e7e7f7f80,
   0x2c2c2d2d2d2e2e2e2f2f2f303030313131323232333333343434353535363636373737383838383939393a3a3a3b3b3b3c3c3c3d3d3d3e3e3e3f3f3f4040404141414242424343434444444545454646464747474848484949494a4a4a4a4b4b4b4c4c4c4d4d4d4e4e4e4f4f4f5050505151515252525353535454545555555656565757575858585959595a5a5a5b5b5b5c5c5c5c5d5d5d5e5e5e5f5f5f6060606161616262626363636464646565656666666767676868686969696a6a6a6b6b6b6c6c6c6d6d6d6e6e6e6e6f6f6f7070707171717272727373737474747575757676767777777878787979797a7a7a7b7b7b7c7c7c7d7d7d7e7e7e7f7f7f80,
   0x3636373737373838383939393a3a3a3a3b3b3b3c3c3c3c3d3d3d3e3e3e3e3f3f3f40404040414141424242424343434444444445454546464646474747484848484949494a4a4a4a4b4b4b4c4c4c4d4d4d4d4e4e4e4f4f4f4f50505051515151525252535353535454545555555556565657575757585858595959595a5a5a5b5b5b5b5c5c5c5d5d5d5e5e5e5e5f5f5f60606060616161626262626363636464646465656566666666676767686868686969696a6a6a6a6b6b6b6c6c6c6c6d6d6d6e6e6e6f6f6f6f70707071717171727272737373737474747575757576767677777777787878797979797a7a7a7b7b7b7b7c7c7c7d7d7d7d7e7e7e7f7f7f80,
   0x44454545454546464646474747474848484848494949494a4a4a4a4b4b4b4b4c4c4c4c4c4d4d4d4d4e4e4e4e4f4f4f4f4f505050505151515152525252525353535354545454555555555556565656575757575858585859595959595a5a5a5a5b5b5b5b5c5c5c5c5c5d5d5d5d5e5e5e5e5f5f5f5f5f606060606161616162626262626363636364646464656565656666666666676767676868686869696969696a6a6a6a6b6b6b6b6c6c6c6c6c6d6d6d6d6e6e6e6e6f6f6f6f6f707070707171717172727272737373737374747474757575757676767676777777777878787879797979797a7a7a7a7b7b7b7b7c7c7c7c7c7d7d7d7d7e7e7e7e7f7f7f7f80,
   0x565656575757575757575858585858585959595959595a5a5a5a5a5a5b5b5b5b5b5b5c5c5c5c5c5c5d5d5d5d5d5d5e5e5e5e5e5e5e5f5f5f5f5f5f606060606060616161616161626262626262636363636363646464646464646565656565656666666666666767676767676868686868686969696969696a6a6a6a6a6a6b6b6b6b6b6b6b6c6c6c6c6c6c6d6d6d6d6d6d6e6e6e6e6e6e6f6f6f6f6f6f70707070707071717171717172727272727272737373737373747474747474757575757575767676767676777777777777787878787878797979797979797a7a7a7a7a7a7b7b7b7b7b7b7c7c7c7c7c7c7d7d7d7d7d7d7e7e7e7e7e7e7f7f7f7f7f7f80,
   0x6a6a6a6a6a6b6b6b6b6b6b6b6b6b6b6b6b6c6c6c6c6c6c6c6c6c6c6c6c6d6d6d6d6d6d6d6d6d6d6d6d6e6e6e6e6e6e6e6e6e6e6e6e6f6f6f6f6f6f6f6f6f6f6f7070707070707070707070707171717171717171717171717272727272727272727272727373737373737373737373737474747474747474747474747575757575757575757575757676767676767676767676767777777777777777777777777878787878787878787878787979797979797979797979797a7a7a7a7a7a7a7a7a7a7a7a7b7b7b7b7b7b7b7b7b7b7b7b7c7c7c7c7c7c7c7c7c7c7c7c7d7d7d7d7d7d7d7d7d7d7d7d7e7e7e7e7e7e7e7e7e7e7e7e7f7f7f7f7f7f7f7f7f7f7f80]

/-- The rows of R109, k = 0, 3, ..., 75. -/
def tableOs3 : List Nat := tableOs3Part0 ++ tableOs3Part1

/-- The sums of the rows of R109, the spec's transcription check. -/
def tableSumsOs3 : List Nat :=
  [32768, 35377, 37950, 40216, 42043, 43319, 43981, 43981, 43319, 42043, 40216, 37950, 35377,
   32768, 29904, 27331, 25065, 23238, 21962, 21300, 21300, 21962, 23238, 25065, 27331, 29904]

/-- Rows k = 0 to 36 of R110. -/
def tableOs9Part0 : List Nat :=
  [0x80808080808080808080808080808080808080808080808080808080808080808080808080808080808080808080808080808080808080808080808080808080808080808080808080808080808080808080808080808080808080808080808080808080808080808080808080808080808080808080808080808080808080808080808080808080808080808080808080808080808080808080808080808080808080808080808080808080808080808080808080808080808080808080808080808080808080808080808080808080808080808080808080808080808080808080808080808080808080808080808080808080808080808080808080808080,
   0x87878787878787868686868686868686868686868686868686868686868686868686868686868686868685858585858585858585858585858585858585858585858585858585858585858585858584848484848484848484848484848484848484848484848484848484848484848484848383838383838383838383838383838383838383838383838383838383838383838383838282828282828282828282828282828282828282828282828282828282828282828282818181818181818181818181818181818181818181818181818181818181818181818181808080808080808080808080808080808080808080808080808080808080808080808080,
   0x8e8e8e8e8e8e8d8d8d8d8d8d8d8d8d8d8d8d8d8d8d8d8d8d8c8c8c8c8c8c8c8c8c8c8c8c8c8c8c8c8c8c8b8b8b8b8b8b8b8b8b8b8b8b8b8b8b8b8b8b8a8a8a8a8a8a8a8a8a8a8a8a8a8a8a8a8a8989898989898989898989898989898989898888888888888888888888888888888888888787878787878787878787878787878787878686868686868686868686868686868686868585858585858585858585858585858585848484848484848484848484848484848484838383838383838383838383838383838383828282828282828282828282828282828282818181818181818181818181818181818181808080808080808080808080808080808080,
   0x959595959594949494949494949494949493939393939393939393939392929292929292929292929291919191919191919191919190909090909090909090908f8f8f8f8f8f8f8f8f8f8f8f8e8e8e8e8e8e8e8e8e8e8e8e8d8d8d8d8d8d8d8d8d8d8d8d8c8c8c8c8c8c8c8c8c8c8c8c8b8b8b8b8b8b8b8b8b8b8b8b8a8a8a8a8a8a8a8a8a8a8a8a898989898989898989898989888888888888888888888888878787878787878787878787868686868686868686868686858585858585858585858585848484848484848484848484838383838383838383838383828282828282828282828282818181818181818181818181808080808080808080808080,
   0x9c9c9c9b9b9b9b9b9b9b9b9b9a9a9a9a9a9a9a9a9a9999999999999999999898989898989898989797979797979797979696969696969696969595959595959595959494949494949494949393939393939393939292929292929292929191919191919191919090909090909090908f8f8f8f8f8f8f8f8f8e8e8e8e8e8e8e8e8e8d8d8d8d8d8d8d8d8d8c8c8c8c8c8c8c8c8c8b8b8b8b8b8b8b8b8b8a8a8a8a8a8a8a8a8a89898989898989898988888888888888888887878787878787878786868686868686868685858585858585858584848484848484848483838383838383838382828282828282828281818181818181818180808080808080808080,
   0xa2a2a2a2a2a2a2a2a1a1a1a1a1a1a1a0a0a0a0a0a0a09f9f9f9f9f9f9f9f9e9e9e9e9e9e9e9d9d9d9d9d9d9d9c9c9c9c9c9c9c9b9b9b9b9b9b9b9b9a9a9a9a9a9a9a999999999999999898989898989898979797979797979696969696969695959595959595949494949494949493939393939393929292929292929191919191919191909090909090908f8f8f8f8f8f8f8e8e8e8e8e8e8e8d8d8d8d8d8d8d8d8c8c8c8c8c8c8c8b8b8b8b8b8b8b8a8a8a8a8a8a8a8a89898989898989888888888888888787878787878786868686868686868585858585858584848484848484838383838383838382828282828282818181818181818080808080808080,
   0xa9a9a9a8a8a8a8a8a8a8a7a7a7a7a7a7a6a6a6a6a6a6a5a5a5a5a5a5a4a4a4a4a4a4a3a3a3a3a3a3a2a2a2a2a2a2a1a1a1a1a1a1a1a0a0a0a0a0a09f9f9f9f9f9f9e9e9e9e9e9e9d9d9d9d9d9d9c9c9c9c9c9c9b9b9b9b9b9b9b9a9a9a9a9a9a999999999999989898989898979797979797969696969696959595959595949494949494949393939393939292929292929191919191919090909090908f8f8f8f8f8f8e8e8e8e8e8e8d8d8d8d8d8d8d8c8c8c8c8c8c8b8b8b8b8b8b8a8a8a8a8a8a8989898989898888888888888787878787878686868686868685858585858584848484848483838383838382828282828281818181818180808080808080,
   0xafafafafaeaeaeaeaeaeadadadadadacacacacacababababababaaaaaaaaaaa9a9a9a9a9a8a8a8a8a8a8a7a7a7a7a7a6a6a6a6a6a5a5a5a5a5a5a4a4a4a4a4a3a3a3a3a3a2a2a2a2a2a2a1a1a1a1a1a0a0a0a0a09f9f9f9f9f9f9e9e9e9e9e9d9d9d9d9d9c9c9c9c9c9c9b9b9b9b9b9a9a9a9a9a9a99999999999898989898979797979797969696969695959595959494949494949393939393929292929291919191919190909090908f8f8f8f8f8e8e8e8e8e8e8d8d8d8d8d8c8c8c8c8c8b8b8b8b8b8b8a8a8a8a8a898989898988888888888887878787878686868686858585858585848484848483838383838282828282828181818181808080808080,
   0xb5b5b5b4b4b4b4b4b3b3b3b3b3b2b2b2b2b2b1b1b1b1b0b0b0b0b0afafafafafaeaeaeaeaeadadadadacacacacacabababababaaaaaaaaaaa9a9a9a9a9a8a8a8a8a7a7a7a7a7a6a6a6a6a6a5a5a5a5a5a4a4a4a4a3a3a3a3a3a2a2a2a2a2a1a1a1a1a1a0a0a0a09f9f9f9f9f9e9e9e9e9e9d9d9d9d9d9c9c9c9c9b9b9b9b9b9a9a9a9a9a99999999999898989897979797979696969696959595959594949494939393939392929292929191919191909090908f8f8f8f8f8e8e8e8e8e8d8d8d8d8d8c8c8c8c8b8b8b8b8b8a8a8a8a8a898989898988888888878787878786868686868585858585848484848383838383828282828281818181818080808080,
   0xbbbababababab9b9b9b9b8b8b8b8b7b7b7b7b7b6b6b6b6b5b5b5b5b4b4b4b4b3b3b3b3b3b2b2b2b2b1b1b1b1b0b0b0b0b0afafafafaeaeaeaeadadadadadacacacacababababaaaaaaaaaaa9a9a9a9a8a8a8a8a7a7a7a7a6a6a6a6a6a5a5a5a5a4a4a4a4a3a3a3a3a3a2a2a2a2a1a1a1a1a0a0a0a0a09f9f9f9f9e9e9e9e9d9d9d9d9d9c9c9c9c9b9b9b9b9a9a9a9a99999999999898989897979797969696969695959595949494949393939393929292929191919190909090908f8f8f8f8e8e8e8e8d8d8d8d8c8c8c8c8c8b8b8b8b8a8a8a8a8989898989888888888787878786868686868585858584848484838383838382828282818181818080808080,
   0xc0c0bfbfbfbfbebebebebdbdbdbdbcbcbcbcbbbbbbbbbabababab9b9b9b9b8b8b8b8b7b7b7b7b6b6b6b6b5b5b5b5b4b4b4b3b3b3b3b2b2b2b2b1b1b1b1b0b0b0b0afafafafaeaeaeaeadadadadacacacacababababaaaaaaaaa9a9a9a9a8a8a8a8a7a7a7a7a6a6a6a6a5a5a5a5a4a4a4a4a3a3a3a3a2a2a2a2a1a1a1a1a0a0a0a09f9f9f9f9e9e9e9e9d9d9d9d9c9c9c9c9b9b9b9b9a9a9a999999999898989897979797969696969595959594949494939393939292929291919191909090908f8f8f8f8e8e8e8e8d8d8d8d8c8c8c8c8b8b8b8b8a8a8a8a89898989888888888787878786868686858585858484848483838383828282828181818180808080,
   0xc5c4c4c4c4c3c3c3c2c2c2c2c1c1c1c1c0c0c0bfbfbfbfbebebebebdbdbdbdbcbcbcbbbbbbbbbabababab9b9b9b8b8b8b8b7b7b7b7b6b6b6b5b5b5b5b4b4b4b4b3b3b3b2b2b2b2b1b1b1b1b0b0b0afafafafaeaeaeaeadadadadacacacababababaaaaaaaaa9a9a9a8a8a8a8a7a7a7a7a6a6a6a5a5a5a5a4a4a4a4a3a3a3a2a2a2a2a1a1a1a1a0a0a09f9f9f9f9e9e9e9e9d9d9d9d9c9c9c9b9b9b9b9a9a9a9a9999999898989897979797969696959595959494949493939392929292919191919090908f8f8f8f8e8e8e8e8d8d8d8d8c8c8c8b8b8b8b8a8a8a8a89898988888888878787878686868585858584848484838383828282828181818180808080,
   0xc9c9c8c8c8c8c7c7c7c6c6c6c5c5c5c5c4c4c4c3c3c3c3c2c2c2c1c1c1c1c0c0c0bfbfbfbfbebebebdbdbdbdbcbcbcbbbbbbbbbababab9b9b9b9b8b8b8b7b7b7b7b6b6b6b5b5b5b5b4b4b4b3b3b3b2b2b2b2b1b1b1b0b0b0b0afafafaeaeaeaeadadadacacacacabababaaaaaaaaa9a9a9a8a8a8a8a7a7a7a6a6a6a6a5a5a5a4a4a4a4a3a3a3a2a2a2a1a1a1a1a0a0a09f9f9f9f9e9e9e9d9d9d9d9c9c9c9b9b9b9b9a9a9a99999999989898979797979696969595959594949493939393929292919191909090908f8f8f8e8e8e8e8d8d8d8c8c8c8c8b8b8b8a8a8a8a8989898888888887878786868686858585848484848383838282828281818180808080]

/-- Rows k = 39 to 75 of R110. -/
def tableOs9Part1 : List Nat :=
  [0xcdcccccccccbcbcbcacacac9c9c9c9c8c8c8c7c7c7c6c6c6c6c5c5c5c4c4c4c3c3c3c2c2c2c2c1c1c1c0c0c0bfbfbfbfbebebebdbdbdbcbcbcbcbbbbbbbababab9b9b9b8b8b8b8b7b7b7b6b6b6b5b5b5b5b4b4b4b3b3b3b2b2b2b2b1b1b1b0b0b0afafafaeaeaeaeadadadacacacababababaaaaaaa9a9a9a8a8a8a8a7a7a7a6a6a6a5a5a5a4a4a4a4a3a3a3a2a2a2a1a1a1a1a0a0a09f9f9f9e9e9e9e9d9d9d9c9c9c9b9b9b9a9a9a9a9999999898989797979796969695959594949494939393929292919191909090908f8f8f8e8e8e8d8d8d8d8c8c8c8b8b8b8a8a8a8a898989888888878787868686868585858484848383838382828281818180808080,
   0xd0d0d0cfcfcfcecececdcdcdcccccccbcbcbcacacac9c9c9c9c8c8c8c7c7c7c6c6c6c5c5c5c4c4c4c3c3c3c3c2c2c2c1c1c1c0c0c0bfbfbfbebebebdbdbdbdbcbcbcbbbbbbbababab9b9b9b8b8b8b7b7b7b7b6b6b6b5b5b5b4b4b4b3b3b3b2b2b2b1b1b1b1b0b0b0afafafaeaeaeadadadacacacababababaaaaaaa9a9a9a8a8a8a7a7a7a6a6a6a5a5a5a4a4a4a4a3a3a3a2a2a2a1a1a1a0a0a09f9f9f9e9e9e9e9d9d9d9c9c9c9b9b9b9a9a9a99999998989898979797969696959595949494939393929292929191919090908f8f8f8e8e8e8d8d8d8c8c8c8c8b8b8b8a8a8a8989898888888787878686868685858584848483838382828281818180808080,
   0xd3d3d2d2d2d1d1d1d0d0d0cfcfcfcecececdcdcdcccccccbcbcbcacacac9c9c9c8c8c8c7c7c7c7c6c6c6c5c5c5c4c4c4c3c3c3c2c2c2c1c1c1c0c0c0bfbfbfbebebebdbdbdbcbcbcbbbbbbbababab9b9b9b8b8b8b7b7b7b6b6b6b5b5b5b5b4b4b4b3b3b3b2b2b2b1b1b1b0b0b0afafafaeaeaeadadadacacacabababaaaaaaa9a9a9a8a8a8a7a7a7a6a6a6a5a5a5a4a4a4a3a3a3a3a2a2a2a1a1a1a0a0a09f9f9f9e9e9e9d9d9d9c9c9c9b9b9b9a9a9a999999989898979797969696959595949494939393929292919191919090908f8f8f8e8e8e8d8d8d8c8c8c8b8b8b8a8a8a89898988888887878786868685858584848483838382828281818180808080,
   0xd5d5d5d4d4d4d3d3d3d2d2d2d1d1d1d0d0d0cfcfcfcececdcdcdcccccccbcbcbcacacac9c9c9c8c8c8c7c7c7c6c6c6c5c5c5c4c4c4c3c3c3c2c2c2c1c1c1c0c0c0bfbfbfbebebebdbdbdbcbcbcbbbbbbbababab9b9b9b8b8b8b7b7b7b6b6b6b5b5b5b4b4b4b3b3b3b2b2b2b1b1b1b0b0b0afafafaeaeaeadadadacacacabababaaaaaaa9a9a9a8a8a8a7a7a6a6a6a5a5a5a4a4a4a3a3a3a2a2a2a1a1a1a0a0a09f9f9f9e9e9e9d9d9d9c9c9c9b9b9b9a9a9a9999999898989797979696969595959494949393939292929191919090908f8f8f8e8e8e8d8d8d8c8c8c8b8b8b8a8a8a898989888888878787868686858585848484838383828282818181808080,
   0xd7d7d6d6d6d5d5d5d4d4d4d3d3d2d2d2d1d1d1d0d0d0cfcfcfcecececdcdcdcccccccbcbcbcacacac9c9c9c8c8c8c7c7c6c6c6c5c5c5c4c4c4c3c3c3c2c2c2c1c1c1c0c0c0bfbfbfbebebebdbdbdbcbcbcbbbbbababab9b9b9b8b8b8b7b7b7b6b6b6b5b5b5b4b4b4b3b3b3b2b2b2b1b1b1b0b0b0afafaeaeaeadadadacacacabababaaaaaaa9a9a9a8a8a8a7a7a7a6a6a6a5a5a5a4a4a4a3a3a2a2a2a1a1a1a0a0a09f9f9f9e9e9e9d9d9d9c9c9c9b9b9b9a9a9a99999998989897979696969595959494949393939292929191919090908f8f8f8e8e8e8d8d8d8c8c8c8b8b8a8a8a898989888888878787868686858585848484838383828282818181808080,
   0xd8d8d7d7d7d6d6d6d5d5d5d4d4d4d3d3d3d2d2d1d1d1d0d0d0cfcfcfcecececdcdcdcccccccbcbcbcacacac9c9c8c8c8c7c7c7c6c6c6c5c5c5c4c4c4c3c3c3c2c2c2c1c1c0c0c0bfbfbfbebebebdbdbdbcbcbcbbbbbbbababab9b9b8b8b8b7b7b7b6b6b6b5b5b5b4b4b4b3b3b3b2b2b2b1b1b0b0b0afafafaeaeaeadadadacacacabababaaaaaaa9a9a8a8a8a7a7a7a6a6a6a5a5a5a4a4a4a3a3a3a2a2a2a1a1a1a0a09f9f9f9e9e9e9d9d9d9c9c9c9b9b9b9a9a9a999999989897979796969695959594949493939392929291919190908f8f8f8e8e8e8d8d8d8c8c8c8b8b8b8a8a8a8989898888878787868686858585848484838383828282818181808080,
   0xd9d8d8d8d7d7d7d6d6d6d5d5d4d4d4d3d3d3d2d2d2d1d1d1d0d0d0cfcfcfcececdcdcdcccccccbcbcbcacacac9c9c9c8c8c8c7c7c6c6c6c5c5c5c4c4c4c3c3c3c2c2c2c1c1c1c0c0bfbfbfbebebebdbdbdbcbcbcbbbbbbbababab9b9b9b8b8b7b7b7b6b6b6b5b5b5b4b4b4b3b3b3b2b2b2b1b1b0b0b0afafafaeaeaeadadadacacacabababaaaaa9a9a9a8a8a8a7a7a7a6a6a6a5a5a5a4a4a4a3a3a2a2a2a1a1a1a0a0a09f9f9f9e9e9e9d9d9d9c9c9b9b9b9a9a9a99999998989897979796969695959494949393939292929191919090908f8f8f8e8e8d8d8d8c8c8c8b8b8b8a8a8a8989898888888787868686858585848484838383828282818181808080,
   0xd9d8d8d8d7d7d7d6d6d6d5d5d4d4d4d3d3d3d2d2d2d1d1d1d0d0d0cfcfcfcececdcdcdcccccccbcbcbcacacac9c9c9c8c8c8c7c7c6c6c6c5c5c5c4c4c4c3c3c3c2c2c2c1c1c1c0c0bfbfbfbebebebdbdbdbcbcbcbbbbbbbababab9b9b9b8b8b7b7b7b6b6b6b5b5b5b4b4b4b3b3b3b2b2b2b1b1b0b0b0afafafaeaeaeadadadacacacabababaaaaa9a9a9a8a8a8a7a7a7a6a6a6a5a5a5a4a4a4a3a3a2a2a2a1a1a1a0a0a09f9f9f9e9e9e9d9d9d9c9c9b9b9b9a9a9a99999998989897979796969695959494949393939292929191919090908f8f8f8e8e8d8d8d8c8c8c8b8b8b8a8a8a8989898888888787868686858585848484838383828282818181808080,
   0xd8d8d7d7d7d6d6d6d5d5d5d4d4d4d3d3d3d2d2d1d1d1d0d0d0cfcfcfcecececdcdcdcccccccbcbcbcacacac9c9c8c8c8c7c7c7c6c6c6c5c5c5c4c4c4c3c3c3c2c2c2c1c1c0c0c0bfbfbfbebebebdbdbdbcbcbcbbbbbbbababab9b9b8b8b8b7b7b7b6b6b6b5b5b5b4b4b4b3b3b3b2b2b2b1b1b0b0b0afafafaeaeaeadadadacacacabababaaaaaaa9a9a8a8a8a7a7a7a6a6a6a5a5a5a4a4a4a3a3a3a2a2a2a1a1a1a0a09f9f9f9e9e9e9d9d9d9c9c9c9b9b9b9a9a9a999999989897979796969695959594949493939392929291919190908f8f8f8e8e8e8d8d8d8c8c8c8b8b8b8a8a8a8989898888878787868686858585848484838383828282818181808080,
   0xd7d7d6d6d6d5d5d5d4d4d4d3d3d2d2d2d1d1d1d0d0d0cfcfcfcecececdcdcdcccccccbcbcbcacacac9c9c9c8c8c8c7c7c6c6c6c5c5c5c4c4c4c3c3c3c2c2c2c1c1c1c0c0c0bfbfbfbebebebdbdbdbcbcbcbbbbbababab9b9b9b8b8b8b7b7b7b6b6b6b5b5b5b4b4b4b3b3b3b2b2b2b1b1b1b0b0b0afafaeaeaeadadadacacacabababaaaaaaa9a9a9a8a8a8a7a7a7a6a6a6a5a5a5a4a4a4a3a3a2a2a2a1a1a1a0a0a09f9f9f9e9e9e9d9d9d9c9c9c9b9b9b9a9a9a99999998989897979696969595959494949393939292929191919090908f8f8f8e8e8e8d8d8d8c8c8c8b8b8a8a8a898989888888878787868686858585848484838383828282818181808080,
   0xd5d5d5d4d4d4d3d3d3d2d2d2d1d1d1d0d0d0cfcfcfcececdcdcdcccccccbcbcbcacacac9c9c9c8c8c8c7c7c7c6c6c6c5c5c5c4c4c4c3c3c3c2c2c2c1c1c1c0c0c0bfbfbfbebebebdbdbdbcbcbcbbbbbbbababab9b9b9b8b8b8b7b7b7b6b6b6b5b5b5b4b4b4b3b3b3b2b2b2b1b1b1b0b0b0afafafaeaeaeadadadacacacabababaaaaaaa9a9a9a8a8a8a7a7a6a6a6a5a5a5a4a4a4a3a3a3a2a2a2a1a1a1a0a0a09f9f9f9e9e9e9d9d9d9c9c9c9b9b9b9a9a9a9999999898989797979696969595959494949393939292929191919090908f8f8f8e8e8e8d8d8d8c8c8c8b8b8b8a8a8a898989888888878787868686858585848484838383828282818181808080,
   0xd3d3d2d2d2d1d1d1d0d0d0cfcfcfcecececdcdcdcccccccbcbcbcacacac9c9c9c8c8c8c7c7c7c7c6c6c6c5c5c5c4c4c4c3c3c3c2c2c2c1c1c1c0c0c0bfbfbfbebebebdbdbdbcbcbcbbbbbbbababab9b9b9b8b8b8b7b7b7b6b6b6b5b5b5b5b4b4b4b3b3b3b2b2b2b1b1b1b0b0b0afafafaeaeaeadadadacacacabababaaaaaaa9a9a9a8a8a8a7a7a7a6a6a6a5a5a5a4a4a4a3a3a3a3a2a2a2a1a1a1a0a0a09f9f9f9e9e9e9d9d9d9c9c9c9b9b9b9a9a9a999999989898979797969696959595949494939393929292919191919090908f8f8f8e8e8e8d8d8d8c8c8c8b8b8b8a8a8a89898988888887878786868685858584848483838382828281818180808080,
   0xd0d0d0cfcfcfcecececdcdcdcccccccbcbcbcacacac9c9c9c9c8c8c8c7c7c7c6c6c6c5c5c5c4c4c4c3c3c3c3c2c2c2c1c1c1c0c0c0bfbfbfbebebebdbdbdbdbcbcbcbbbbbbbababab9b9b9b8b8b8b7b7b7b7b6b6b6b5b5b5b4b4b4b3b3b3b2b2b2b1b1b1b1b0b0b0afafafaeaeaeadadadacacacababababaaaaaaa9a9a9a8a8a8a7a7a7a6a6a6a5a5a5a4a4a4a4a3a3a3a2a2a2a1a1a1a0a0a09f9f9f9e9e9e9e9d9d9d9c9c9c9b9b9b9a9a9a99999998989898979797969696959595949494939393929292929191919090908f8f8f8e8e8e8d8d8d8c8c8c8c8b8b8b8a8a8a8989898888888787878686868685858584848483838382828281818180808080]

/-- Rows k = 78 to 114 of R110. -/
def tableOs9Part2 : List Nat :=
  [0xcdcccccccccbcbcbcacacac9c9c9c9c8c8c8c7c7c7c6c6c6c6c5c5c5c4c4c4c3c3c3c2c2c2c2c1c1c1c0c0c0bfbfbfbfbebebebdbdbdbcbcbcbcbbbbbbbababab9b9b9b8b8b8b8b7b7b7b6b6b6b5b5b5b5b4b4b4b3b3b3b2b2b2b2b1b1b1b0b0b0afafafaeaeaeaeadadadacacacababababaaaaaaa9a9a9a8a8a8a8a7a7a7a6a6a6a5a5a5a4a4a4a4a3a3a3a2a2a2a1a1a1a1a0a0a09f9f9f9e9e9e9e9d9d9d9c9c9c9b9b9b9a9a9a9a9999999898989797979796969695959594949494939393929292919191909090908f8f8f8e8e8e8d8d8d8d8c8c8c8b8b8b8a8a8a8a898989888888878787868686868585858484848383838382828281818180808080,
   0xc9c9c8c8c8c8c7c7c7c6c6c6c5c5c5c5c4c4c4c3c3c3c3c2c2c2c1c1c1c1c0c0c0bfbfbfbfbebebebdbdbdbdbcbcbcbbbbbbbbbababab9b9b9b9b8b8b8b7b7b7b7b6b6b6b5b5b5b5b4b4b4b3b3b3b2b2b2b2b1b1b1b0b0b0b0afafafaeaeaeaeadadadacacacacabababaaaaaaaaa9a9a9a8a8a8a8a7a7a7a6a6a6a6a5a5a5a4a4a4a4a3a3a3a2a2a2a1a1a1a1a0a0a09f9f9f9f9e9e9e9d9d9d9d9c9c9c9b9b9b9b9a9a9a99999999989898979797979696969595959594949493939393929292919191909090908f8f8f8e8e8e8e8d8d8d8c8c8c8c8b8b8b8a8a8a8a8989898888888887878786868686858585848484848383838282828281818180808080,
   0xc5c4c4c4c4c3c3c3c2c2c2c2c1c1c1c1c0c0c0bfbfbfbfbebebebebdbdbdbdbcbcbcbbbbbbbbbabababab9b9b9b8b8b8b8b7b7b7b7b6b6b6b5b5b5b5b4b4b4b4b3b3b3b2b2b2b2b1b1b1b1b0b0b0afafafafaeaeaeaeadadadadacacacababababaaaaaaaaa9a9a9a8a8a8a8a7a7a7a7a6a6a6a5a5a5a5a4a4a4a4a3a3a3a2a2a2a2a1a1a1a1a0a0a09f9f9f9f9e9e9e9e9d9d9d9d9c9c9c9b9b9b9b9a9a9a9a9999999898989897979797969696959595959494949493939392929292919191919090908f8f8f8f8e8e8e8e8d8d8d8d8c8c8c8b8b8b8b8a8a8a8a89898988888888878787878686868585858584848484838383828282828181818180808080,
   0xc0c0bfbfbfbfbebebebebdbdbdbdbcbcbcbcbbbbbbbbbabababab9b9b9b9b8b8b8b8b7b7b7b7b6b6b6b6b5b5b5b5b4b4b4b3b3b3b3b2b2b2b2b1b1b1b1b0b0b0b0afafafafaeaeaeaeadadadadacacacacababababaaaaaaaaa9a9a9a9a8a8a8a8a7a7a7a7a6a6a6a6a5a5a5a5a4a4a4a4a3a3a3a3a2a2a2a2a1a1a1a1a0a0a0a09f9f9f9f9e9e9e9e9d9d9d9d9c9c9c9c9b9b9b9b9a9a9a999999999898989897979797969696969595959594949494939393939292929291919191909090908f8f8f8f8e8e8e8e8d8d8d8d8c8c8c8c8b8b8b8b8a8a8a8a89898989888888888787878786868686858585858484848483838383828282828181818180808080,
   0xbbbababababab9b9b9b9b8b8b8b8b7b7b7b7b7b6b6b6b6b5b5b5b5b4b4b4b4b3b3b3b3b3b2b2b2b2b1b1b1b1b0b0b0b0b0afafafafaeaeaeaeadadadadadacacacacababababaaaaaaaaaaa9a9a9a9a8a8a8a8a7a7a7a7a6a6a6a6a6a5a5a5a5a4a4a4a4a3a3a3a3a3a2a2a2a2a1a1a1a1a0a0a0a0a09f9f9f9f9e9e9e9e9d9d9d9d9d9c9c9c9c9b9b9b9b9a9a9a9a99999999999898989897979797969696969695959595949494949393939393929292929191919190909090908f8f8f8f8e8e8e8e8d8d8d8d8c8c8c8c8c8b8b8b8b8a8a8a8a8989898989888888888787878786868686868585858584848484838383838382828282818181818080808080,
   0xb5b5b5b4b4b4b4b4b3b3b3b3b3b2b2b2b2b2b1b1b1b1b0b0b0b0b0afafafafafaeaeaeaeaeadadadadacacacacacabababababaaaaaaaaaaa9a9a9a9a9a8a8a8a8a7a7a7a7a7a6a6a6a6a6a5a5a5a5a5a4a4a4a4a3a3a3a3a3a2a2a2a2a2a1a1a1a1a1a0a0a0a09f9f9f9f9f9e9e9e9e9e9d9d9d9d9d9c9c9c9c9b9b9b9b9b9a9a9a9a9a99999999999898989897979797979696969696959595959594949494939393939392929292929191919191909090908f8f8f8f8f8e8e8e8e8e8d8d8d8d8d8c8c8c8c8b8b8b8b8b8a8a8a8a8a898989898988888888878787878786868686868585858585848484848383838383828282828281818181818080808080,
   0xafafafafaeaeaeaeaeaeadadadadadacacacacacababababababaaaaaaaaaaa9a9a9a9a9a8a8a8a8a8a8a7a7a7a7a7a6a6a6a6a6a5a5a5a5a5a5a4a4a4a4a4a3a3a3a3a3a2a2a2a2a2a2a1a1a1a1a1a0a0a0a0a09f9f9f9f9f9f9e9e9e9e9e9d9d9d9d9d9c9c9c9c9c9c9b9b9b9b9b9a9a9a9a9a9a99999999999898989898979797979797969696969695959595959494949494949393939393929292929291919191919190909090908f8f8f8f8f8e8e8e8e8e8e8d8d8d8d8d8c8c8c8c8c8b8b8b8b8b8b8a8a8a8a8a898989898988888888888887878787878686868686858585858585848484848483838383838282828282828181818181808080808080,
   0xa9a9a9a8a8a8a8a8a8a8a7a7a7a7a7a7a6a6a6a6a6a6a5a5a5a5a5a5a4a4a4a4a4a4a3a3a3a3a3a3a2a2a2a2a2a2a1a1a1a1a1a1a1a0a0a0a0a0a09f9f9f9f9f9f9e9e9e9e9e9e9d9d9d9d9d9d9c9c9c9c9c9c9b9b9b9b9b9b9b9a9a9a9a9a9a999999999999989898989898979797979797969696969696959595959595949494949494949393939393939292929292929191919191919090909090908f8f8f8f8f8f8e8e8e8e8e8e8d8d8d8d8d8d8d8c8c8c8c8c8c8b8b8b8b8b8b8a8a8a8a8a8a8989898989898888888888888787878787878686868686868685858585858584848484848483838383838382828282828281818181818180808080808080,
   0xa2a2a2a2a2a2a2a2a1a1a1a1a1a1a1a0a0a0a0a0a0a09f9f9f9f9f9f9f9f9e9e9e9e9e9e9e9d9d9d9d9d9d9d9c9c9c9c9c9c9c9b9b9b9b9b9b9b9b9a9a9a9a9a9a9a999999999999999898989898989898979797979797979696969696969695959595959595949494949494949493939393939393929292929292929191919191919191909090909090908f8f8f8f8f8f8f8e8e8e8e8e8e8e8d8d8d8d8d8d8d8d8c8c8c8c8c8c8c8b8b8b8b8b8b8b8a8a8a8a8a8a8a8a89898989898989888888888888888787878787878786868686868686868585858585858584848484848484838383838383838382828282828282818181818181818080808080808080,
   0x9c9c9c9b9b9b9b9b9b9b9b9b9a9a9a9a9a9a9a9a9a9999999999999999999898989898989898989797979797979797979696969696969696969595959595959595959494949494949494949393939393939393939292929292929292929191919191919191919090909090909090908f8f8f8f8f8f8f8f8f8e8e8e8e8e8e8e8e8e8d8d8d8d8d8d8d8d8d8c8c8c8c8c8c8c8c8c8b8b8b8b8b8b8b8b8b8a8a8a8a8a8a8a8a8a89898989898989898988888888888888888887878787878787878786868686868686868685858585858585858584848484848484848483838383838383838382828282828282828281818181818181818180808080808080808080,
   0x959595959594949494949494949494949493939393939393939393939392929292929292929292929291919191919191919191919190909090909090909090908f8f8f8f8f8f8f8f8f8f8f8f8e8e8e8e8e8e8e8e8e8e8e8e8d8d8d8d8d8d8d8d8d8d8d8d8c8c8c8c8c8c8c8c8c8c8c8c8b8b8b8b8b8b8b8b8b8b8b8b8a8a8a8a8a8a8a8a8a8a8a8a898989898989898989898989888888888888888888888888878787878787878787878787868686868686868686868686858585858585858585858585848484848484848484848484838383838383838383838383828282828282828282828282818181818181818181818181808080808080808080808080,
   0x8e8e8e8e8e8e8d8d8d8d8d8d8d8d8d8d8d8d8d8d8d8d8d8d8c8c8c8c8c8c8c8c8c8c8c8c8c8c8c8c8c8c8b8b8b8b8b8b8b8b8b8b8b8b8b8b8b8b8b8b8a8a8a8a8a8a8a8a8a8a8a8a8a8a8a8a8a8989898989898989898989898989898989898888888888888888888888888888888888888787878787878787878787878787878787878686868686868686868686868686868686868585858585858585858585858585858585848484848484848484848484848484848484838383838383838383838383838383838383828282828282828282828282828282828282818181818181818181818181818181818181808080808080808080808080808080808080,
   0x87878787878787868686868686868686868686868686868686868686868686868686868686868686868685858585858585858585858585858585858585858585858585858585858585858585858584848484848484848484848484848484848484848484848484848484848484848484848383838383838383838383838383838383838383838383838383838383838383838383838282828282828282828282828282828282828282828282828282828282828282828282818181818181818181818181818181818181818181818181818181818181818181818181808080808080808080808080808080808080808080808080808080808080808080808080]

/-- Rows k = 117 to 153 of R110. -/
def tableOs9Part3 : List Nat :=
  [0x80808080808080808080808080808080808080808080808080808080808080808080808080808080808080808080808080808080808080808080808080808080808080808080808080808080808080808080808080808080808080808080808080808080808080808080808080808080808080808080808080808080808080808080808080808080808080808080808080808080808080808080808080808080808080808080808080808080808080808080808080808080808080808080808080808080808080808080808080808080808080808080808080808080808080808080808080808080808080808080808080808080808080808080808080808080,
   0x7878787878787879797979797979797979797979797979797979797979797979797979797979797979797a7a7a7a7a7a7a7a7a7a7a7a7a7a7a7a7a7a7a7a7a7a7a7a7a7a7a7a7a7a7a7a7a7a7a7a7b7b7b7b7b7b7b7b7b7b7b7b7b7b7b7b7b7b7b7b7b7b7b7b7b7b7b7b7b7b7b7b7b7b7b7c7c7c7c7c7c7c7c7c7c7c7c7c7c7c7c7c7c7c7c7c7c7c7c7c7c7c7c7c7c7c7c7c7c7c7c7d7d7d7d7d7d7d7d7d7d7d7d7d7d7d7d7d7d7d7d7d7d7d7d7d7d7d7d7d7d7d7d7d7d7d7e7e7e7e7e7e7e7e7e7e7e7e7e7e7e7e7e7e7e7e7e7e7e7e7e7e7e7e7e7e7e7e7e7e7e7e7f7f7f7f7f7f7f7f7f7f7f7f7f7f7f7f7f7f7f7f7f7f7f7f7f7f7f7f7f7f7f7f7f7f7f80,
   0x71717171717172727272727272727272727272727272727273737373737373737373737373737373737374747474747474747474747474747474747475757575757575757575757575757575757676767676767676767676767676767676767777777777777777777777777777777777777878787878787878787878787878787878787979797979797979797979797979797979797a7a7a7a7a7a7a7a7a7a7a7a7a7a7a7a7a7b7b7b7b7b7b7b7b7b7b7b7b7b7b7b7b7b7b7c7c7c7c7c7c7c7c7c7c7c7c7c7c7c7c7c7c7d7d7d7d7d7d7d7d7d7d7d7d7d7d7d7d7d7d7e7e7e7e7e7e7e7e7e7e7e7e7e7e7e7e7e7e7f7f7f7f7f7f7f7f7f7f7f7f7f7f7f7f7f80,
   0x6a6a6a6a6a6b6b6b6b6b6b6b6b6b6b6b6b6c6c6c6c6c6c6c6c6c6c6c6c6d6d6d6d6d6d6d6d6d6d6d6d6e6e6e6e6e6e6e6e6e6e6e6e6f6f6f6f6f6f6f6f6f6f6f7070707070707070707070707171717171717171717171717272727272727272727272727373737373737373737373737474747474747474747474747575757575757575757575757676767676767676767676767777777777777777777777777878787878787878787878787979797979797979797979797a7a7a7a7a7a7a7a7a7a7a7a7b7b7b7b7b7b7b7b7b7b7b7b7c7c7c7c7c7c7c7c7c7c7c7c7d7d7d7d7d7d7d7d7d7d7d7d7e7e7e7e7e7e7e7e7e7e7e7e7f7f7f7f7f7f7f7f7f7f7f80,
   0x6363636464646464646464646565656565656565656666666666666666666767676767676767676868686868686868686969696969696969696a6a6a6a6a6a6a6a6a6b6b6b6b6b6b6b6b6b6c6c6c6c6c6c6c6c6c6d6d6d6d6d6d6d6d6d6e6e6e6e6e6e6e6e6e6f6f6f6f6f6f6f6f6f7070707070707070707171717171717171717272727272727272727373737373737373737474747474747474747575757575757575757676767676767676767777777777777777777878787878787878787979797979797979797a7a7a7a7a7a7a7a7a7b7b7b7b7b7b7b7b7b7c7c7c7c7c7c7c7c7c7d7d7d7d7d7d7d7d7d7e7e7e7e7e7e7e7e7e7f7f7f7f7f7f7f7f7f80,
   0x5d5d5d5d5d5d5d5d5e5e5e5e5e5e5e5f5f5f5f5f5f5f606060606060606061616161616161626262626262626363636363636364646464646464646565656565656566666666666666676767676767676768686868686868696969696969696a6a6a6a6a6a6a6b6b6b6b6b6b6b6b6c6c6c6c6c6c6c6d6d6d6d6d6d6d6e6e6e6e6e6e6e6e6f6f6f6f6f6f6f707070707070707171717171717172727272727272727373737373737374747474747474757575757575757576767676767676777777777777777878787878787879797979797979797a7a7a7a7a7a7a7b7b7b7b7b7b7b7c7c7c7c7c7c7c7c7d7d7d7d7d7d7d7e7e7e7e7e7e7e7f7f7f7f7f7f7f80,
   0x565656575757575757575858585858585959595959595a5a5a5a5a5a5b5b5b5b5b5b5c5c5c5c5c5c5d5d5d5d5d5d5e5e5e5e5e5e5e5f5f5f5f5f5f606060606060616161616161626262626262636363636363646464646464646565656565656666666666666767676767676868686868686969696969696a6a6a6a6a6a6b6b6b6b6b6b6b6c6c6c6c6c6c6d6d6d6d6d6d6e6e6e6e6e6e6f6f6f6f6f6f70707070707071717171717172727272727272737373737373747474747474757575757575767676767676777777777777787878787878797979797979797a7a7a7a7a7a7b7b7b7b7b7b7c7c7c7c7c7c7d7d7d7d7d7d7e7e7e7e7e7e7f7f7f7f7f7f80,
   0x505050505151515151515252525252535353535354545454545455555555555656565656575757575757585858585859595959595a5a5a5a5a5a5b5b5b5b5b5c5c5c5c5c5d5d5d5d5d5d5e5e5e5e5e5f5f5f5f5f6060606060606161616161626262626263636363636364646464646565656565656666666666676767676768686868686869696969696a6a6a6a6a6b6b6b6b6b6b6c6c6c6c6c6d6d6d6d6d6e6e6e6e6e6e6f6f6f6f6f70707070707171717171717272727272737373737374747474747475757575757676767676777777777777787878787879797979797a7a7a7a7a7a7b7b7b7b7b7c7c7c7c7c7d7d7d7d7d7d7e7e7e7e7e7f7f7f7f7f80,
   0x4a4a4a4b4b4b4b4b4c4c4c4c4c4d4d4d4d4d4e4e4e4e4f4f4f4f4f5050505050515151515152525252535353535354545454545555555555565656565657575757585858585859595959595a5a5a5a5a5b5b5b5b5c5c5c5c5c5d5d5d5d5d5e5e5e5e5e5f5f5f5f6060606060616161616162626262626363636364646464646565656565666666666667676767686868686869696969696a6a6a6a6a6b6b6b6b6c6c6c6c6c6d6d6d6d6d6e6e6e6e6e6f6f6f6f7070707070717171717172727272727373737374747474747575757575767676767677777777787878787879797979797a7a7a7a7a7b7b7b7b7c7c7c7c7c7d7d7d7d7d7e7e7e7e7e7f7f7f7f80,
   0x44454545454546464646474747474848484848494949494a4a4a4a4b4b4b4b4c4c4c4c4c4d4d4d4d4e4e4e4e4f4f4f4f4f505050505151515152525252525353535354545454555555555556565656575757575858585859595959595a5a5a5a5b5b5b5b5c5c5c5c5c5d5d5d5d5e5e5e5e5f5f5f5f5f606060606161616162626262626363636364646464656565656666666666676767676868686869696969696a6a6a6a6b6b6b6b6c6c6c6c6c6d6d6d6d6e6e6e6e6f6f6f6f6f707070707171717172727272737373737374747474757575757676767676777777777878787879797979797a7a7a7a7b7b7b7b7c7c7c7c7c7d7d7d7d7e7e7e7e7f7f7f7f80,
   0x3f3f404040404141414142424242434343434444444445454545464646464747474748484848494949494a4a4a4a4b4b4b4c4c4c4c4d4d4d4d4e4e4e4e4f4f4f4f505050505151515152525252535353535454545455555555565656565757575758585858595959595a5a5a5a5b5b5b5b5c5c5c5c5d5d5d5d5e5e5e5e5f5f5f5f6060606061616161626262626363636364646464656565666666666767676768686868696969696a6a6a6a6b6b6b6b6c6c6c6c6d6d6d6d6e6e6e6e6f6f6f6f707070707171717172727272737373737474747475757575767676767777777778787878797979797a7a7a7a7b7b7b7b7c7c7c7c7d7d7d7d7e7e7e7e7f7f7f80,
   0x3a3b3b3b3b3c3c3c3d3d3d3d3e3e3e3e3f3f3f404040404141414142424242434343444444444545454546464647474747484848484949494a4a4a4a4b4b4b4b4c4c4c4d4d4d4d4e4e4e4e4f4f4f505050505151515152525252535353545454545555555556565657575757585858585959595a5a5a5a5b5b5b5b5c5c5c5d5d5d5d5e5e5e5e5f5f5f606060606161616162626262636363646464646565656566666667676767686868686969696a6a6a6a6b6b6b6b6c6c6c6d6d6d6d6e6e6e6e6f6f6f707070707171717172727272737373747474747575757576767677777777787878787979797a7a7a7a7b7b7b7b7c7c7c7d7d7d7d7e7e7e7e7f7f7f80,
   0x3636373737373838383939393a3a3a3a3b3b3b3c3c3c3c3d3d3d3e3e3e3e3f3f3f40404040414141424242424343434444444445454546464646474747484848484949494a4a4a4a4b4b4b4c4c4c4d4d4d4d4e4e4e4f4f4f4f50505051515151525252535353535454545555555556565657575757585858595959595a5a5a5b5b5b5b5c5c5c5d5d5d5e5e5e5e5f5f5f60606060616161626262626363636464646465656566666666676767686868686969696a6a6a6a6b6b6b6c6c6c6c6d6d6d6e6e6e6f6f6f6f70707071717171727272737373737474747575757576767677777777787878797979797a7a7a7b7b7b7b7c7c7c7d7d7d7d7e7e7e7f7f7f80]

/-- Rows k = 156 to 192 of R110. -/
def tableOs9Part4 : List Nat :=
  [0x323333333334343435353536363636373737383838393939393a3a3a3b3b3b3c3c3c3d3d3d3d3e3e3e3f3f3f4040404041414142424243434343444444454545464646474747474848484949494a4a4a4a4b4b4b4c4c4c4d4d4d4d4e4e4e4f4f4f5050505151515152525253535354545454555555565656575757575858585959595a5a5a5b5b5b5b5c5c5c5d5d5d5e5e5e5e5f5f5f6060606161616162626263636364646465656565666666676767686868686969696a6a6a6b6b6b6b6c6c6c6d6d6d6e6e6e6f6f6f6f7070707171717272727273737374747475757575767676777777787878797979797a7a7a7b7b7b7c7c7c7c7d7d7d7e7e7e7f7f7f80,
   0x2f2f2f303030313131323232333333343434353535363636363737373838383939393a3a3a3b3b3b3c3c3c3c3d3d3d3e3e3e3f3f3f40404041414142424242434343444444454545464646474747484848484949494a4a4a4b4b4b4c4c4c4d4d4d4e4e4e4e4f4f4f505050515151525252535353545454545555555656565757575858585959595a5a5a5b5b5b5b5c5c5c5d5d5d5e5e5e5f5f5f60606061616161626262636363646464656565666666676767676868686969696a6a6a6b6b6b6c6c6c6d6d6d6d6e6e6e6f6f6f70707071717172727273737373747474757575767676777777787878797979797a7a7a7b7b7b7c7c7c7d7d7d7e7e7e7f7f7f80,
   0x2c2c2d2d2d2e2e2e2f2f2f303030313131323232333333343434353535363636373737383838383939393a3a3a3b3b3b3c3c3c3d3d3d3e3e3e3f3f3f4040404141414242424343434444444545454646464747474848484949494a4a4a4a4b4b4b4c4c4c4d4d4d4e4e4e4f4f4f5050505151515252525353535454545555555656565757575858585959595a5a5a5b5b5b5c5c5c5c5d5d5d5e5e5e5f5f5f6060606161616262626363636464646565656666666767676868686969696a6a6a6b6b6b6c6c6c6d6d6d6e6e6e6e6f6f6f7070707171717272727373737474747575757676767777777878787979797a7a7a7b7b7b7c7c7c7d7d7d7e7e7e7f7f7f80,
   0x2a2a2a2b2b2b2c2c2c2d2d2d2e2e2e2f2f2f30303031313232323333333434343535353636363737373838383939393a3a3a3b3b3b3c3c3c3d3d3d3e3e3e3f3f3f4040404141414242424343434444444545454646464747474848484949494a4a4a4b4b4b4c4c4c4d4d4d4e4e4e4f4f4f50505051515152525253535354545455555556565657575758585959595a5a5a5b5b5b5c5c5c5d5d5d5e5e5e5f5f5f6060606161616262626363636464646565656666666767676868686969696a6a6a6b6b6b6c6c6c6d6d6d6e6e6e6f6f6f7070707171717272727373737474747575757676767777777878787979797a7a7a7b7b7b7c7c7c7d7d7d7e7e7e7f7f80,
   0x28282929292a2a2a2b2b2b2c2c2d2d2d2e2e2e2f2f2f30303031313132323233333334343435353536363637373738383939393a3a3a3b3b3b3c3c3c3d3d3d3e3e3e3f3f3f40404041414142424243434344444545454646464747474848484949494a4a4a4b4b4b4c4c4c4d4d4d4e4e4e4f4f4f50505151515252525353535454545555555656565757575858585959595a5a5a5b5b5b5c5c5d5d5d5e5e5e5f5f5f60606061616162626263636364646465656566666667676768686969696a6a6a6b6b6b6c6c6c6d6d6d6e6e6e6f6f6f70707071717172727273737374747575757676767777777878787979797a7a7a7b7b7b7c7c7c7d7d7d7e7e7e7f7f80,
   0x27272828282929292a2a2a2b2b2b2c2c2c2d2d2e2e2e2f2f2f30303031313132323233333334343435353536363737373838383939393a3a3a3b3b3b3c3c3c3d3d3d3e3e3f3f3f40404041414142424243434344444445454546464747474848484949494a4a4a4b4b4b4c4c4c4d4d4d4e4e4f4f4f50505051515152525253535354545455555556565757575858585959595a5a5a5b5b5b5c5c5c5d5d5d5e5e5e5f5f60606061616162626263636364646465656566666667676868686969696a6a6a6b6b6b6c6c6c6d6d6d6e6e6e6f6f70707071717172727273737374747475757576767677777878787979797a7a7a7b7b7b7c7c7c7d7d7d7e7e7e7f7f80,
   0x262727272828282929292a2a2b2b2b2c2c2c2d2d2d2e2e2e2f2f2f303030313132323233333334343435353536363637373738383939393a3a3a3b3b3b3c3c3c3d3d3d3e3e3e3f3f40404041414142424243434344444445454546464647474848484949494a4a4a4b4b4b4c4c4c4d4d4d4e4e4f4f4f50505051515152525253535354545455555656565757575858585959595a5a5a5b5b5b5c5c5d5d5d5e5e5e5f5f5f60606061616162626263636464646565656666666767676868686969696a6a6b6b6b6c6c6c6d6d6d6e6e6e6f6f6f707070717172727273737374747475757576767677777778787979797a7a7a7b7b7b7c7c7c7d7d7d7e7e7e7f7f80,
   0x262727272828282929292a2a2b2b2b2c2c2c2d2d2d2e2e2e2f2f2f303030313132323233333334343435353536363637373738383939393a3a3a3b3b3b3c3c3c3d3d3d3e3e3e3f3f40404041414142424243434344444445454546464647474848484949494a4a4a4b4b4b4c4c4c4d4d4d4e4e4f4f4f50505051515152525253535354545455555656565757575858585959595a5a5a5b5b5b5c5c5d5d5d5e5e5e5f5f5f60606061616162626263636464646565656666666767676868686969696a6a6b6b6b6c6c6c6d6d6d6e6e6e6f6f6f707070717172727273737374747475757576767677777778787979797a7a7a7b7b7b7c7c7c7d7d7d7e7e7e7f7f80,
   0x27272828282929292a2a2a2b2b2b2c2c2c2d2d2e2e2e2f2f2f30303031313132323233333334343435353536363737373838383939393a3a3a3b3b3b3c3c3c3d3d3d3e3e3f3f3f40404041414142424243434344444445454546464747474848484949494a4a4a4b4b4b4c4c4c4d4d4d4e4e4f4f4f50505051515152525253535354545455555556565757575858585959595a5a5a5b5b5b5c5c5c5d5d5d5e5e5e5f5f60606061616162626263636364646465656566666667676868686969696a6a6a6b6b6b6c6c6c6d6d6d6e6e6e6f6f70707071717172727273737374747475757576767677777878787979797a7a7a7b7b7b7c7c7c7d7d7d7e7e7e7f7f80,
   0x28282929292a2a2a2b2b2b2c2c2d2d2d2e2e2e2f2f2f30303031313132323233333334343435353536363637373738383939393a3a3a3b3b3b3c3c3c3d3d3d3e3e3e3f3f3f40404041414142424243434344444545454646464747474848484949494a4a4a4b4b4b4c4c4c4d4d4d4e4e4e4f4f4f50505151515252525353535454545555555656565757575858585959595a5a5a5b5b5b5c5c5d5d5d5e5e5e5f5f5f60606061616162626263636364646465656566666667676768686969696a6a6a6b6b6b6c6c6c6d6d6d6e6e6e6f6f6f70707071717172727273737374747575757676767777777878787979797a7a7a7b7b7b7c7c7c7d7d7d7e7e7e7f7f80,
   0x2a2a2a2b2b2b2c2c2c2d2d2d2e2e2e2f2f2f30303031313232323333333434343535353636363737373838383939393a3a3a3b3b3b3c3c3c3d3d3d3e3e3e3f3f3f4040404141414242424343434444444545454646464747474848484949494a4a4a4b4b4b4c4c4c4d4d4d4e4e4e4f4f4f50505051515152525253535354545455555556565657575758585959595a5a5a5b5b5b5c5c5c5d5d5d5e5e5e5f5f5f6060606161616262626363636464646565656666666767676868686969696a6a6a6b6b6b6c6c6c6d6d6d6e6e6e6f6f6f7070707171717272727373737474747575757676767777777878787979797a7a7a7b7b7b7c7c7c7d7d7d7e7e7e7f7f80,
   0x2c2c2d2d2d2e2e2e2f2f2f303030313131323232333333343434353535363636373737383838383939393a3a3a3b3b3b3c3c3c3d3d3d3e3e3e3f3f3f4040404141414242424343434444444545454646464747474848484949494a4a4a4a4b4b4b4c4c4c4d4d4d4e4e4e4f4f4f5050505151515252525353535454545555555656565757575858585959595a5a5a5b5b5b5c5c5c5c5d5d5d5e5e5e5f5f5f6060606161616262626363636464646565656666666767676868686969696a6a6a6b6b6b6c6c6c6d6d6d6e6e6e6e6f6f6f7070707171717272727373737474747575757676767777777878787979797a7a7a7b7b7b7c7c7c7d7d7d7e7e7e7f7f7f80,
   0x2f2f2f303030313131323232333333343434353535363636363737373838383939393a3a3a3b3b3b3c3c3c3c3d3d3d3e3e3e3f3f3f40404041414142424242434343444444454545464646474747484848484949494a4a4a4b4b4b4c4c4c4d4d4d4e4e4e4e4f4f4f505050515151525252535353545454545555555656565757575858585959595a5a5a5b5b5b5b5c5c5c5d5d5d5e5e5e5f5f5f60606061616161626262636363646464656565666666676767676868686969696a6a6a6b6b6b6c6c6c6d6d6d6d6e6e6e6f6f6f70707071717172727273737373747474757575767676777777787878797979797a7a7a7b7b7b7c7c7c7d7d7d7e7e7e7f7f7f80]

/-- Rows k = 195 to 231 of R110. -/
def tableOs9Part5 : List Nat :=
  [0x323333333334343435353536363636373737383838393939393a3a3a3b3b3b3c3c3c3d3d3d3d3e3e3e3f3f3f4040404041414142424243434343444444454545464646474747474848484949494a4a4a4a4b4b4b4c4c4c4d4d4d4d4e4e4e4f4f4f5050505151515152525253535354545454555555565656575757575858585959595a5a5a5b5b5b5b5c5c5c5d5d5d5e5e5e5e5f5f5f6060606161616162626263636364646465656565666666676767686868686969696a6a6a6b6b6b6b6c6c6c6d6d6d6e6e6e6f6f6f6f7070707171717272727273737374747475757575767676777777787878797979797a7a7a7b7b7b7c7c7c7c7d7d7d7e7e7e7f7f7f80,
   0x3636373737373838383939393a3a3a3a3b3b3b3c3c3c3c3d3d3d3e3e3e3e3f3f3f40404040414141424242424343434444444445454546464646474747484848484949494a4a4a4a4b4b4b4c4c4c4d4d4d4d4e4e4e4f4f4f4f50505051515151525252535353535454545555555556565657575757585858595959595a5a5a5b5b5b5b5c5c5c5d5d5d5e5e5e5e5f5f5f60606060616161626262626363636464646465656566666666676767686868686969696a6a6a6a6b6b6b6c6c6c6c6d6d6d6e6e6e6f6f6f6f70707071717171727272737373737474747575757576767677777777787878797979797a7a7a7b7b7b7b7c7c7c7d7d7d7d7e7e7e7f7f7f80,
   0x3a3b3b3b3b3c3c3c3d3d3d3d3e3e3e3e3f3f3f404040404141414142424242434343444444444545454546464647474747484848484949494a4a4a4a4b4b4b4b4c4c4c4d4d4d4d4e4e4e4e4f4f4f505050505151515152525252535353545454545555555556565657575757585858585959595a5a5a5a5b5b5b5b5c5c5c5d5d5d5d5e5e5e5e5f5f5f606060606161616162626262636363646464646565656566666667676767686868686969696a6a6a6a6b6b6b6b6c6c6c6d6d6d6d6e6e6e6e6f6f6f707070707171717172727272737373747474747575757576767677777777787878787979797a7a7a7a7b7b7b7b7c7c7c7d7d7d7d7e7e7e7e7f7f7f80,
   0x3f3f404040404141414142424242434343434444444445454545464646464747474748484848494949494a4a4a4a4b4b4b4c4c4c4c4d4d4d4d4e4e4e4e4f4f4f4f505050505151515152525252535353535454545455555555565656565757575758585858595959595a5a5a5a5b5b5b5b5c5c5c5c5d5d5d5d5e5e5e5e5f5f5f5f6060606061616161626262626363636364646464656565666666666767676768686868696969696a6a6a6a6b6b6b6b6c6c6c6c6d6d6d6d6e6e6e6e6f6f6f6f707070707171717172727272737373737474747475757575767676767777777778787878797979797a7a7a7a7b7b7b7b7c7c7c7c7d7d7d7d7e7e7e7e7f7f7f80,
   0x44454545454546464646474747474848484848494949494a4a4a4a4b4b4b4b4c4c4c4c4c4d4d4d4d4e4e4e4e4f4f4f4f4f505050505151515152525252525353535354545454555555555556565656575757575858585859595959595a5a5a5a5b5b5b5b5c5c5c5c5c5d5d5d5d5e5e5e5e5f5f5f5f5f606060606161616162626262626363636364646464656565656666666666676767676868686869696969696a6a6a6a6b6b6b6b6c6c6c6c6c6d6d6d6d6e6e6e6e6f6f6f6f6f707070707171717172727272737373737374747474757575757676767676777777777878787879797979797a7a7a7a7b7b7b7b7c7c7c7c7c7d7d7d7d7e7e7e7e7f7f7f7f80,
   0x4a4a4a4b4b4b4b4b4c4c4c4c4c4d4d4d4d4d4e4e4e4e4f4f4f4f4f5050505050515151515152525252535353535354545454545555555555565656565657575757585858585859595959595a5a5a5a5a5b5b5b5b5c5c5c5c5c5d5d5d5d5d5e5e5e5e5e5f5f5f5f6060606060616161616162626262626363636364646464646565656565666666666667676767686868686869696969696a6a6a6a6a6b6b6b6b6c6c6c6c6c6d6d6d6d6d6e6e6e6e6e6f6f6f6f7070707070717171717172727272727373737374747474747575757575767676767677777777787878787879797979797a7a7a7a7a7b7b7b7b7c7c7c7c7c7d7d7d7d7d7e7e7e7e7e7f7f7f7f80,
   0x505050505151515151515252525252535353535354545454545455555555555656565656575757575757585858585859595959595a5a5a5a5a5a5b5b5b5b5b5c5c5c5c5c5d5d5d5d5d5d5e5e5e5e5e5f5f5f5f5f6060606060606161616161626262626263636363636364646464646565656565656666666666676767676768686868686869696969696a6a6a6a6a6b6b6b6b6b6b6c6c6c6c6c6d6d6d6d6d6e6e6e6e6e6e6f6f6f6f6f70707070707171717171717272727272737373737374747474747475757575757676767676777777777777787878787879797979797a7a7a7a7a7a7b7b7b7b7b7c7c7c7c7c7d7d7d7d7d7d7e7e7e7e7e7f7f7f7f7f80,
   0x565656575757575757575858585858585959595959595a5a5a5a5a5a5b5b5b5b5b5b5c5c5c5c5c5c5d5d5d5d5d5d5e5e5e5e5e5e5e5f5f5f5f5f5f606060606060616161616161626262626262636363636363646464646464646565656565656666666666666767676767676868686868686969696969696a6a6a6a6a6a6b6b6b6b6b6b6b6c6c6c6c6c6c6d6d6d6d6d6d6e6e6e6e6e6e6f6f6f6f6f6f70707070707071717171717172727272727272737373737373747474747474757575757575767676767676777777777777787878787878797979797979797a7a7a7a7a7a7b7b7b7b7b7b7c7c7c7c7c7c7d7d7d7d7d7d7e7e7e7e7e7e7f7f7f7f7f7f80,
   0x5d5d5d5d5d5d5d5d5e5e5e5e5e5e5e5f5f5f5f5f5f5f606060606060606061616161616161626262626262626363636363636364646464646464646565656565656566666666666666676767676767676768686868686868696969696969696a6a6a6a6a6a6a6b6b6b6b6b6b6b6b6c6c6c6c6c6c6c6d6d6d6d6d6d6d6e6e6e6e6e6e6e6e6f6f6f6f6f6f6f707070707070707171717171717172727272727272727373737373737374747474747474757575757575757576767676767676777777777777777878787878787879797979797979797a7a7a7a7a7a7a7b7b7b7b7b7b7b7c7c7c7c7c7c7c7c7d7d7d7d7d7d7d7e7e7e7e7e7e7e7f7f7f7f7f7f7f80,
   0x6363636464646464646464646565656565656565656666666666666666666767676767676767676868686868686868686969696969696969696a6a6a6a6a6a6a6a6a6b6b6b6b6b6b6b6b6b6c6c6c6c6c6c6c6c6c6d6d6d6d6d6d6d6d6d6e6e6e6e6e6e6e6e6e6f6f6f6f6f6f6f6f6f7070707070707070707171717171717171717272727272727272727373737373737373737474747474747474747575757575757575757676767676767676767777777777777777777878787878787878787979797979797979797a7a7a7a7a7a7a7a7a7b7b7b7b7b7b7b7b7b7c7c7c7c7c7c7c7c7c7d7d7d7d7d7d7d7d7d7e7e7e7e7e7e7e7e7e7f7f7f7f7f7f7f7f7f80,
   0x6a6a6a6a6a6b6b6b6b6b6b6b6b6b6b6b6b6c6c6c6c6c6c6c6c6c6c6c6c6d6d6d6d6d6d6d6d6d6d6d6d6e6e6e6e6e6e6e6e6e6e6e6e6f6f6f6f6f6f6f6f6f6f6f7070707070707070707070707171717171717171717171717272727272727272727272727373737373737373737373737474747474747474747474747575757575757575757575757676767676767676767676767777777777777777777777777878787878787878787878787979797979797979797979797a7a7a7a7a7a7a7a7a7a7a7a7b7b7b7b7b7b7b7b7b7b7b7b7c7c7c7c7c7c7c7c7c7c7c7c7d7d7d7d7d7d7d7d7d7d7d7d7e7e7e7e7e7e7e7e7e7e7e7e7f7f7f7f7f7f7f7f7f7f7f80,
   0x71717171717172727272727272727272727272727272727273737373737373737373737373737373737374747474747474747474747474747474747475757575757575757575757575757575757676767676767676767676767676767676767777777777777777777777777777777777777878787878787878787878787878787878787979797979797979797979797979797979797a7a7a7a7a7a7a7a7a7a7a7a7a7a7a7a7a7b7b7b7b7b7b7b7b7b7b7b7b7b7b7b7b7b7b7c7c7c7c7c7c7c7c7c7c7c7c7c7c7c7c7c7c7d7d7d7d7d7d7d7d7d7d7d7d7d7d7d7d7d7d7e7e7e7e7e7e7e7e7e7e7e7e7e7e7e7e7e7e7f7f7f7f7f7f7f7f7f7f7f7f7f7f7f7f7f80,
   0x7878787878787879797979797979797979797979797979797979797979797979797979797979797979797a7a7a7a7a7a7a7a7a7a7a7a7a7a7a7a7a7a7a7a7a7a7a7a7a7a7a7a7a7a7a7a7a7a7a7a7b7b7b7b7b7b7b7b7b7b7b7b7b7b7b7b7b7b7b7b7b7b7b7b7b7b7b7b7b7b7b7b7b7b7b7c7c7c7c7c7c7c7c7c7c7c7c7c7c7c7c7c7c7c7c7c7c7c7c7c7c7c7c7c7c7c7c7c7c7c7c7d7d7d7d7d7d7d7d7d7d7d7d7d7d7d7d7d7d7d7d7d7d7d7d7d7d7d7d7d7d7d7d7d7d7d7e7e7e7e7e7e7e7e7e7e7e7e7e7e7e7e7e7e7e7e7e7e7e7e7e7e7e7e7e7e7e7e7e7e7e7e7f7f7f7f7f7f7f7f7f7f7f7f7f7f7f7f7f7f7f7f7f7f7f7f7f7f7f7f7f7f7f7f7f7f7f80]

/-- The rows of R110, k = 0, 3, ..., 231. -/
def tableOs9 : List Nat := tableOs9Part0 ++ tableOs9Part1 ++ tableOs9Part2 ++ tableOs9Part3 ++ tableOs9Part4 ++ tableOs9Part5

/-- The sums of the rows of R110, the spec's transcription check. -/
def tableSumsOs9 : List Nat :=
  [32768, 33561, 34475, 35377, 36254, 37118, 37950, 38746, 39503, 40216, 40882, 41490, 42043,
   42535, 42962, 43319, 43616, 43836, 43981, 44055, 44055, 43981, 43836, 43616, 43319, 42962,
   42535, 42043, 41490, 40882, 40216, 39503, 38746, 37950, 37118, 36254, 35377, 34475, 33561,
   32768, 31720, 30806, 29904, 29027, 28163, 27331, 26535, 25778, 25065, 24399, 23791, 23238,
   22746, 22319, 21962, 21665, 21445, 21300, 21226, 21226, 21300, 21445, 21665, 21962, 22319,
   22746, 23238, 23791, 24399, 25065, 25778, 26535, 27331, 28163, 29027, 29904, 30806, 31720]

/-- Q(v, k) as R109 tabulates it, for k = 0, 3, ..., 75. -/
def tableByteOs3 (v : Byte) (k : Nat) : Byte := rowByte (tableOs3.getD (k / 3) 0) v

/-- Q(v, k) as R110 tabulates it, for k = 0, 3, ..., 231. -/
def tableByteOs9 (v : Byte) (k : Nat) : Byte := rowByte (tableOs9.getD (k / 3) 0) v

/-- The sum of a row's 256 bytes. -/
def rowSum (row : Nat) : Nat :=
  ((List.range 256).map fun v => (rowByte row (BitVec.ofNat 8 v)).toNat).sum

end Sys2Proof.Machine
end

