-- ==== Sys2Proof/Machine/Script.lean ====
section
/-! DEFINITION. The two notations of the spec: the assembler text of a segment descriptor (spec/30_encoding.md R78) and
host command scripts as lists of inputs (R79). -/

namespace Sys2Proof.Machine

/-! ## Assembler text -/

/-- The mnemonic of an operation (R78). -/
def segOpText : SegOp → String
  | .sync => "SYNC"
  | .space => "SPACE"
  | .image => "IMAGE"
  | .telem => "TELEM"

/-- The channel's letter (R78). -/
def channelText : Channel → String
  | .a => "A"
  | .b => "B"

/-- The operands of a descriptor: SPACE names its level, the others do not (R78). -/
def operandText (d : Descriptor) : List String :=
  match d.op with
  | .space => [channelText d.ch, if d.lvl then "255" else "0", toString d.len.toNat]
  | _ => [channelText d.ch, toString d.len.toNat]

/-- A descriptor in assembler syntax, operands parted by commas (R78). -/
def descriptorText (d : Descriptor) : String :=
  segOpText d.op ++ " " ++ String.intercalate ", " (operandText d)

/-! ## Host command scripts -/

/-- `WR <offset>, <value>` (R79). -/
def scriptWrite (addr : BitVec 8) (value : Word) : Input := .event (.host ⟨true, addr, value⟩)

/-- `RD <offset>` (R79). -/
def scriptRead (addr : BitVec 8) : Input := .event (.host ⟨false, addr, 0#32⟩)

/-- `CONFIG <wa>, <ha>, <wb>, <hb>` (R79). -/
def scriptConfig (wa ha wb hb : Word) : List Input :=
  [scriptWrite 0x08#8 wa, scriptWrite 0x10#8 ha, scriptWrite 0x0C#8 wb, scriptWrite 0x14#8 hb]

/-- `WAITIDLE` with so many reads of STATUS: the interleaving decides how many it takes (R79). -/
def scriptWaitIdle (reads : Nat) : List Input := List.replicate reads (scriptRead 0x04#8)

/-- `RUN <flags>` with so many reads of STATUS (R79). -/
def scriptRun (flags : Word) (reads : Nat) : List Input :=
  scriptWrite 0x00#8 (flags ||| 1#32) :: scriptWaitIdle reads

end Sys2Proof.Machine
end

