-- ==== Sys2Proof/Safety.lean ====
section
/-! DEFINITION. The terms statements use: the invariant of the machine, when a SampleStep can complete, what it leaves,
the signal of a run in closed form, and the reserved descriptors. -/

namespace Sys2Proof.Machine

/-! ## The invariant -/

/-- What holds in every state the machine reaches (spec/10_state.md R26, R29 to R32, R37 to R39, spec/40_line_framer.md
R93, R96, spec/60_exceptions.md R134, R135). -/
structure Inv (s : State) : Prop where
  /-- OVERSAMPLE is legal (R5); five bits bound it by 31. -/
  oversample_pos : 1 ≤ s.oversample.toNat
  /-- POS < LEN(SEGDESC[SEG]) (R29). -/
  pos_lt : s.pos.toNat < segLen s.seg
  /-- SUB < OVERSAMPLE (R29). -/
  sub_lt : s.sub.toNat < s.oversample.toNat
  /-- LINE ≤ NLINES (R29). -/
  line_le : s.line.toNat ≤ s.nlines.toNat
  /-- LINE < NLINES while a run is in progress (R29). -/
  busy_line : s.busy = true → s.line.toNat < s.nlines.toNat
  /-- Between runs the position stands at the end of the last one (R29). -/
  idle_position : s.busy = false → s.line = s.nlines ∧ s.seg = 0#3 ∧ s.pos = 0#10 ∧ s.sub = 0#5
  /-- SN is the number of samples before the position (R96). -/
  sn_position : s.sn.toNat =
    (s.line.toNat * lineSymbols + segStart s.seg + s.pos.toNat) * s.oversample.toNat + s.sub.toNat
  /-- PHASE = (15 × SN) mod (26 × OVERSAMPLE) (R26, R100). -/
  phase_sn : s.phase.toNat = phaseStep * s.sn.toNat % phaseModulus s.oversample
  /-- DONE excludes BUSY and CFG_ERR (R31). -/
  done_alone : s.done = true → s.busy = false ∧ s.cfgErr = false
  /-- CFG_ERR excludes BUSY and comes with the code 1 or 2 (R134, R136). -/
  error_code : s.cfgErr = true → s.busy = false ∧ (s.errcode = errWidthA ∨ s.errcode = errWidthB)
  /-- When CFG_ERR = 0, ERRCODE = 0 (R32). -/
  no_error_code : s.cfgErr = false → s.errcode = 0#4
  /-- Nothing is pending or held between runs (R38, R39). -/
  idle_quiet : s.busy = false → s.pixPending = false ∧ s.outHold = none
  /-- A request is outstanding only at the first sample of an IMAGE position in range (R95). -/
  pending_image : s.pixPending = true →
    s.outHold = none ∧ s.sub = 0#5 ∧ inImage (segDescriptor s.seg) s = true
  /-- The byte held for the sink is Q(SYM, PHASE) (R39, R107). -/
  held_byte : ∀ byte, s.outHold = some byte → byte = modulatorByte s.oversample s.sym s.phase
  /-- The configuration a run started with stands until its end (R93, R135, R151). -/
  run_config : s.busy = true →
    s.widthA = requiredWidth ∧ (s.single = true ∨ s.widthB = requiredWidth) ∧ s.nlines = runLines s
  /-- The images are in canonical form (log 2). -/
  pixels_wf : memWf s.pixels = true

/-! ## When a SampleStep can complete -/

/-- A SampleStep is enabled and its position is one a run can reach (spec/41_carrier_modulator.md R107, logs 13, 14). -/
def Enabled (d : Descriptor) (s : State) : Prop :=
  s.busy = true ∧ phaseReachable s.oversample s.phase = true ∧ s.pos.toNat < d.len.toNat

/-- The first slot of an enabled SampleStep whose byte the sink takes at once. -/
def Ready (d : Descriptor) (s : State) : Prop :=
  Enabled d s ∧ s.outHold = none ∧ s.sinkReady = true

/-- The state a SampleStep leaves whose symbol is `v` (R107, spec/40_line_framer.md R94). -/
def afterSample (d : Descriptor) (v : Byte) (s : State) : State :=
  advance d
    { s with
      sym := v
      stream := s.stream ++ [modulatorByte s.oversample v s.phase]
      sn := s.sn + 1#32
      phase := nextPhase s.oversample s.phase }

/-- The eight segment operations with their descriptors (spec/30_encoding.md R70). -/
def segmentOps : List (Instr × Descriptor) :=
  [(.syncA, descSyncA), (.spaceA, descSpaceA), (.imageA, descImageA), (.telemA, descTelemA),
   (.syncB, descSyncB), (.spaceB, descSpaceB), (.imageB, descImageB), (.telemB, descTelemB)]

/-! ## Forms of statements -/

/-- A read at `addr`, whatever its write data, is the instruction `i`, which answers `value` and changes nothing
(spec/30_encoding.md R73, spec/20_memory.md R48). -/
def ReadsAs (addr : BitVec 8) (i : Instr) (value : State → Word) : Prop :=
  (∀ w, decode (.hb ⟨false, addr, w⟩) = .instr i) ∧
  ∀ s, exec i s = .next { s with response := some (value s) }

/-- A write of `w` at `addr` is the instruction `i w`, which has the effect `post w` and no response (R73). -/
def WritesAs (addr : BitVec 8) (i : Word → Instr) (post : Word → State → State) : Prop :=
  ∀ w, decode (.hb ⟨true, addr, w⟩) = .instr (i w) ∧
  ∀ s, exec (i w) s = .next { post w s with response := none }

/-- An input that leaves a run going: no Reset, and no START. -/
def continuesRun : Input → Prop
  | .event (.host r) => r.we = true → r.addr = 0x00#8 → r.wdata.getLsbD 0 = false
  | .event _ => True
  | .reset _ => False

/-- An input that leaves a run going and changes no image. -/
def quietInput (x : Input) : Prop :=
  continuesRun x ∧ ∀ p byte, x ≠ .event (.imageChange p byte)

/-! ## The signal of a run -/

/-- The segment that holds a symbol offset of the line (spec/40_line_framer.md R96). -/
def segmentAt (offset : Nat) : BitVec 3 :=
  if offset < 39 then 0#3
  else if offset < 86 then 1#3
  else if offset < 995 then 2#3
  else if offset < 1040 then 3#3
  else if offset < 1079 then 4#3
  else if offset < 1126 then 5#3
  else if offset < 2035 then 6#3
  else 7#3

/-- The symbol of a line at a symbol offset (R82, R96). -/
def signalSymbol (s : State) (line offset : Nat) : Byte :=
  let seg := segmentAt offset
  symbolOf (segDescriptor seg)
    { s with line := BitVec.ofNat 16 line, seg := seg, pos := BitVec.ofNat 10 (offset - segStart seg) }

/-- The byte of sample `n` of a run: the symbol of its line and offset at the phase (15 × n) mod M (R96, R99, R100,
R103). -/
def signalByte (s : State) (n : Nat) : Byte :=
  let os := s.oversample.toNat
  modulatorByte s.oversample (signalSymbol s (n / os / lineSymbols) (n / os % lineSymbols))
    (BitVec.ofNat 10 (phaseStep * n % phaseModulus s.oversample))

/-! ## Reserved descriptors -/

/-- The reserved descriptor encodings, bit by bit (spec/30_encoding.md R69, R72). -/
def reservedDescriptor (w : BitVec 16) : Bool :=
  w.getLsbD 15
  || w.getLsbD 10
  || (w.getLsbD 11 && w.extractLsb' 13 3 != 1#3)
  || w.extractLsb' 0 10 == 0#10
  || (w.extractLsb' 13 3 == 0#3 && w.extractLsb' 0 10 != 39#10)
  || (w.extractLsb' 13 3 == 2#3 && w.extractLsb' 0 10 != 909#10)

end Sys2Proof.Machine
end

