-- ==== Sys2Proof/Certificates/Slice0/Obligations.lean ====
section
/-! DEFINITION. The statements for the provers, in the order of OBLIGATIONS.json. -/

open Sys2Proof Sys2Proof.Machine

/-! ## Encodings -/

/-- Tier 3. Decoding what the encoder writes gives the instruction back, for every well-formed instruction
(spec/30_encoding.md R69, R70, R74). -/
def Obligations.DecodeOfEncodeIsTheInstruction : Prop :=
  ∀ i : Instr, i.wellFormed = true → decode (encode i) = .instr i

/-- R74: the host bus decode table, every selector with exactly one operation. -/
def Obligations.HostBusDecodeTable : Prop :=
  ∀ w : Word,
    (∀ p ∈ [(0x00#8, Instr.rdCtrl), (0x04#8, .rdStatus), (0x08#8, .rdWidthA), (0x0C#8, .rdWidthB),
        (0x10#8, .rdHeightA), (0x14#8, .rdHeightB), (0x18#8, .rdNlines), (0x1C#8, .rdLine),
        (0x20#8, .rdPosition), (0x24#8, .rdSn), (0x28#8, .rdPhase), (0x2C#8, .rdId)],
      decode (.hb ⟨false, p.1, w⟩) = .instr p.2) ∧
    (∀ p ∈ [(0x00#8, Instr.wrCtrl w), (0x08#8, .wrWidthA w), (0x0C#8, .wrWidthB w), (0x10#8, .wrHeightA w),
        (0x14#8, .wrHeightB w), (0x04#8, .wrRoStatus w), (0x18#8, .wrRoNlines w), (0x1C#8, .wrRoLine w),
        (0x20#8, .wrRoPosition w), (0x24#8, .wrRoSn w), (0x28#8, .wrRoPhase w), (0x2C#8, .wrRoId w)],
      decode (.hb ⟨true, p.1, w⟩) = .instr p.2) ∧
    (∀ n : BitVec 3,
      decode (.hb ⟨false, BitVec.ofNat 8 (0x40 + 4 * n.toNat), w⟩) = .instr (.rdSegdesc n) ∧
      decode (.hb ⟨true, BitVec.ofNat 8 (0x40 + 4 * n.toNat), w⟩) = .instr (.wrRoSegdesc n w)) ∧
    (∀ addr : BitVec 8,
      (addr.toNat % 4 ≠ 0 ∨ (0x2C < addr.toNat ∧ addr.toNat < 0x40) ∨ 0x5C < addr.toNat) →
      decode (.hb ⟨false, addr, w⟩) = .instr (.rdUnmapped addr) ∧
      decode (.hb ⟨true, addr, w⟩) = .instr (.wrUnmapped addr w))

/-- Every request decodes to a well-formed instruction whose encoding is the request, the write data of a read apart
(R73, R74, R77). -/
def Obligations.EncodeOfDecodeIsTheRequest : Prop :=
  ∀ r : HbRequest, ∃ i : Instr, decode (.hb r) = .instr i ∧ i.wellFormed = true ∧
    encode i = .hb ⟨r.we, r.addr, if r.we then r.wdata else 0#32⟩

/-- R72: the decoder refuses every reserved descriptor, and the ROM holds none. -/
def Obligations.ReservedDescriptorsAreRefused : Prop :=
  (∀ w : BitVec 16, reservedDescriptor w = true → ∃ why, decode (.seg w) = .rejected why) ∧
  ∀ n : BitVec 3, reservedDescriptor (segDesc n) = false

/-- Tier 1. The eight descriptors of the segment program in index order, what they decode to and where their segments
begin (R28, R70). -/
def Obligations.SegmentRomDecodesInOrder : Prop :=
  let idx : List (BitVec 3) := [0#3, 1#3, 2#3, 3#3, 4#3, 5#3, 6#3, 7#3]
  idx.map segDesc =
    [0x0027#16, 0x202F#16, 0x438D#16, 0x602D#16, 0x1027#16, 0x382F#16, 0x538D#16, 0x702D#16] ∧
  idx.map (fun n => decode (.seg (segDesc n))) =
    [.instr .syncA, .instr .spaceA, .instr .imageA, .instr .telemA,
     .instr .syncB, .instr .spaceB, .instr .imageB, .instr .telemB] ∧
  idx.map segLen = [39, 47, 909, 45, 39, 47, 909, 45] ∧
  idx.map segStart = [0, 39, 86, 995, 1040, 1079, 1126, 2035] ∧
  segStart 7#3 + segLen 7#3 = lineSymbols

/-- Tier 1. A few packets written out from the encodings decode to their instructions: descriptors bit by bit (R69),
selectors mapped, misaligned and unmapped (R45, R74). -/
def Obligations.WrittenOutPacketsDecode : Prop :=
  decode (.seg 0b0000000000100111#16) = .instr .syncA ∧
  decode (.seg 0b0011100000101111#16) = .instr .spaceB ∧
  decode (.seg 0b0100001110001101#16) = .instr .imageA ∧
  decode (.seg 0b0111000000101101#16) = .instr .telemB ∧
  decode (.hb ⟨true, 0b00000000#8, 3#32⟩) = .instr (.wrCtrl 3#32) ∧
  decode (.hb ⟨false, 0b01001000#8, 0#32⟩) = .instr (.rdSegdesc 2#3) ∧
  decode (.hb ⟨true, 0b00000001#8, 1#32⟩) = .instr (.wrUnmapped 1#8 1#32) ∧
  decode (.hb ⟨false, 0b00110000#8, 0#32⟩) = .instr (.rdUnmapped 0x30#8)

/-- R66, R67: the sync ROMs as integers; a '1' of a codeword is the symbol 255, a '0' the symbol 0, and thresholding
the symbols at 128 gives the codeword back, character by character. -/
def Obligations.SyncSymbolsDecodeToTheCodewords : Prop :=
  syncCode .a = 0x0666666600#39 ∧ syncCode .b = 0x0739CE739C#39 ∧
  ∀ p ∈ [("000011001100110011001100110011000000000", Channel.a), ("000011100111001110011100111001110011100", .b)],
    (p.1.toList.map (fun c => if c = '1' then 255#8 else 0#8) =
      (List.range 39).map fun pos => syncSymbol (syncCode p.2) (BitVec.ofNat 10 pos)) ∧
    p.1.toList = (List.range 39).map fun pos =>
      if 128 ≤ (syncSymbol (syncCode p.2) (BitVec.ofNat 10 pos)).toNat then '1' else '0'

/-! ## The step -/

/-- Tier 1. A step runs the instruction a host request decodes to, in the state without that request (R11). -/
def Obligations.StepRunsTheHostRequest : Prop :=
  ∀ (s : State) (r : HbRequest) (rest : List Input) (i : Instr),
    s.inputs = .event (.host r) :: rest → decode (.hb r) = .instr i → i.wellFormed = true →
    step s = exec i { s with inputs := rest }

/-- Tier 1. While BUSY = 1, a step with a slot for it, or with no event waiting, runs the instruction that SEGDESC[SEG]
decodes to (R107; the order of events is the model's, log 3). -/
def Obligations.StepRunsTheSegmentDescriptor : Prop :=
  ∀ (s : State) (i : Instr),
    s.busy = true → decode (.seg (segDesc s.seg)) = .instr i → i.wellFormed = true →
    (s.inputs = [] → step s = exec i s) ∧
    (∀ rest, s.inputs = .event .sample :: rest → step s = exec i { s with inputs := rest })

/-- No step is refused, in any state: the segment ROM holds no descriptor the decoder refuses, and every request is
decoded (R72, R74). -/
def Obligations.NoStepIsRefused : Prop :=
  ∀ (s : State) (why : Refusal), step s ≠ .refused why

/-- Tier 1. With BUSY = 0 and no event waiting the block holds its state; a slot only passes (R11, R146). -/
def Obligations.IdleBlockHoldsItsState : Prop :=
  ∀ s : State, s.busy = false →
    (s.inputs = [] → step s = .next s) ∧
    (∀ rest, s.inputs = .event .sample :: rest → step s = .next { s with inputs := rest })

/-- Tier 1. The model's events of the environment (logs 3, 4, 11): the pixel source and the sink begin and cease to
answer, and the late response to a request a Reset has dropped is ignored (R148). -/
def Obligations.EnvironmentEventsSetTheirLines : Prop :=
  ∀ (s : State) (rest : List Input) (ready : Bool) (byte : Byte),
    (s.inputs = .event (.pixelSource ready) :: rest →
      step s = .next { s with pixelReady := ready, inputs := rest }) ∧
    (s.inputs = .event (.sink ready) :: rest → step s = .next { s with sinkReady := ready, inputs := rest }) ∧
    (s.inputs = .event (.lateResponse byte) :: rest → step s = .next { s with inputs := rest })

/-- A pixel of the pixel source changes (R56; logs 2, 7): that pixel reads the new byte, every other pixel as before,
a run marks it as changed, and nothing else of the machine changes. -/
def Obligations.ImageChangeWritesOnePixel : Prop :=
  ∀ (s : State) (p : PixRequest) (byte : Byte) (rest : List Input),
    memWf s.pixels = true → p.x.toNat < 909 → s.inputs = .event (.imageChange p byte) :: rest →
    ∃ t, step s = .next t ∧ pixelAt t p = byte ∧ (∀ q, q ≠ p → pixelAt t q = pixelAt s q) ∧
      memWf t.pixels = true ∧
      (∀ a, a ∈ t.changed ↔ a ∈ s.changed ∨ (s.busy = true ∧ pixelAt s p ≠ byte ∧ a = pixelAddr p)) ∧
      t = { s with inputs := rest, pixels := t.pixels, changed := t.changed }

/-! ## Host reads -/

/-- R114, R115 (and R33 for STATUS.IRQ): RD_CTRL and RD_STATUS. -/
def Obligations.ReadsOfControlAndStatus : Prop :=
  ReadsAs 0x00#8 .rdCtrl (fun s => 0#29 ++ BitVec.ofBool s.irqEn ++ BitVec.ofBool s.single ++ 0#1) ∧
  ReadsAs 0x04#8 .rdStatus (fun s =>
    0#24 ++ s.errcode ++ BitVec.ofBool (s.irqEn && (s.done || s.cfgErr)) ++ BitVec.ofBool s.cfgErr ++
      BitVec.ofBool s.done ++ BitVec.ofBool s.busy)

/-- R117, R119, R121, R123: the reads of the configuration registers; they read 0 after reset. -/
def Obligations.ReadsOfConfiguration : Prop :=
  ReadsAs 0x08#8 .rdWidthA (fun s => s.widthA.setWidth 32) ∧
  ReadsAs 0x0C#8 .rdWidthB (fun s => s.widthB.setWidth 32) ∧
  ReadsAs 0x10#8 .rdHeightA (fun s => s.heightA.setWidth 32) ∧
  ReadsAs 0x14#8 .rdHeightB (fun s => s.heightB.setWidth 32) ∧
  State.reset.widthA = 0#16 ∧ State.reset.widthB = 0#16 ∧
  State.reset.heightA = 0#16 ∧ State.reset.heightB = 0#16

/-- The reads of the progress registers (R124 to R128). -/
def Obligations.ReadsOfProgress : Prop :=
  ReadsAs 0x18#8 .rdNlines (fun s => s.nlines.setWidth 32) ∧
  ReadsAs 0x1C#8 .rdLine (fun s => s.line.setWidth 32) ∧
  ReadsAs 0x20#8 .rdPosition (fun s => 0#11 ++ s.sub ++ 0#2 ++ s.pos ++ 0#1 ++ s.seg) ∧
  ReadsAs 0x24#8 .rdSn (fun s => s.sn) ∧
  ReadsAs 0x28#8 .rdPhase (fun s => s.phase.setWidth 32)

/-- R129, R130: ID and the segment program ROM; Reset does not affect ID. -/
def Obligations.ReadsOfConstants : Prop :=
  ReadsAs 0x2C#8 .rdId (fun s => 0#16 ++ 0x01#8 ++ s.oversample.setWidth 8) ∧
  (∀ s, (resetBlock s).oversample = s.oversample) ∧
  ReadsAs 0x40#8 (.rdSegdesc 0#3) (fun _ => 0x00000027#32) ∧
  ReadsAs 0x44#8 (.rdSegdesc 1#3) (fun _ => 0x0000202F#32) ∧
  ReadsAs 0x48#8 (.rdSegdesc 2#3) (fun _ => 0x0000438D#32) ∧
  ReadsAs 0x4C#8 (.rdSegdesc 3#3) (fun _ => 0x0000602D#32) ∧
  ReadsAs 0x50#8 (.rdSegdesc 4#3) (fun _ => 0x00001027#32) ∧
  ReadsAs 0x54#8 (.rdSegdesc 5#3) (fun _ => 0x0000382F#32) ∧
  ReadsAs 0x58#8 (.rdSegdesc 6#3) (fun _ => 0x0000538D#32) ∧
  ReadsAs 0x5C#8 (.rdSegdesc 7#3) (fun _ => 0x0000702D#32)

/-- R45, R46, R132: a read of an unmapped or misaligned offset returns 0 and a write to one changes no state. -/
def Obligations.UnmappedOffsetsAreInert : Prop :=
  ∀ addr : BitVec 8,
    (addr.toNat % 4 ≠ 0 ∨ (0x2C < addr.toNat ∧ addr.toNat < 0x40) ∨ 0x5C < addr.toNat) →
    ReadsAs addr (.rdUnmapped addr) (fun _ => 0#32) ∧ WritesAs addr (.wrUnmapped addr) (fun _ s => s)

/-- R131: a write to a read-only register changes no state; only START and Reset clear DONE or CFG_ERR. -/
def Obligations.ReadOnlyRegistersIgnoreWrites : Prop :=
  WritesAs 0x04#8 .wrRoStatus (fun _ s => s) ∧ WritesAs 0x18#8 .wrRoNlines (fun _ s => s) ∧
  WritesAs 0x1C#8 .wrRoLine (fun _ s => s) ∧ WritesAs 0x20#8 .wrRoPosition (fun _ s => s) ∧
  WritesAs 0x24#8 .wrRoSn (fun _ s => s) ∧ WritesAs 0x28#8 .wrRoPhase (fun _ s => s) ∧
  WritesAs 0x2C#8 .wrRoId (fun _ s => s) ∧
  (∀ n : BitVec 3, WritesAs (BitVec.ofNat 8 (0x40 + 4 * n.toNat)) (.wrRoSegdesc n) (fun _ s => s)) ∧
  ∀ s t : State, step s = .next t → ((s.done = true ∧ t.done = false) ∨ (s.cfgErr = true ∧ t.cfgErr = false)) →
    (∃ same rest, s.inputs = .reset same :: rest) ∨
    ∃ w rest, s.inputs = .event (.host ⟨true, 0x00#8, w⟩) :: rest ∧ s.busy = false ∧ w.getLsbD 0 = true

/-! ## Host writes and START -/

/-- R116, R118, R120, R122: a configuration register takes wdata[15:0] while BUSY = 0 and ignores the write while
BUSY = 1. -/
def Obligations.ConfigurationWrites : Prop :=
  WritesAs 0x08#8 .wrWidthA (fun w s => if s.busy then s else { s with widthA := w.extractLsb' 0 16 }) ∧
  WritesAs 0x0C#8 .wrWidthB (fun w s => if s.busy then s else { s with widthB := w.extractLsb' 0 16 }) ∧
  WritesAs 0x10#8 .wrHeightA (fun w s => if s.busy then s else { s with heightA := w.extractLsb' 0 16 }) ∧
  WritesAs 0x14#8 .wrHeightB (fun w s => if s.busy then s else { s with heightB := w.extractLsb' 0 16 })

/-- R112, R152: a write to CTRL without an accepted START. While BUSY = 1 it changes only IRQ_EN, START and SINGLE being
ignored; while BUSY = 0 it sets IRQ_EN and SINGLE. -/
def Obligations.ControlWritesSetTheEnables : Prop :=
  ∀ (w : Word) (s : State),
    (s.busy = true → exec (.wrCtrl w) s = .next { s with irqEn := w.getLsbD 2, response := none }) ∧
    (s.busy = false → w.getLsbD 0 = false →
      exec (.wrCtrl w) s = .next { s with irqEn := w.getLsbD 2, single := w.getLsbD 1, response := none })

/-- R113, R135, R136: an accepted START sees the SINGLE of its own write and clears the outcome of the last run. If the
widths are legal it latches NLINES, sets position, SN and PHASE to 0, and sets BUSY, or DONE at once for a run without
lines; else it records ConfigError, width A first, and changes nothing else. What becomes of the model's own marks of
changed pixels is left open (log 7). -/
def Obligations.StartBeginsARunOrRecordsTheError : Prop :=
  ∀ (w : Word) (s : State), s.busy = false → w.getLsbD 0 = true →
    (s.widthA = 909#16 → (w.getLsbD 1 = true ∨ s.widthB = 909#16) →
      let heightB := if w.getLsbD 1 then s.heightA else s.heightB
      let lines := if s.heightA.toNat < heightB.toNat then heightB else s.heightA
      ∃ marks, exec (.wrCtrl w) s = .next
        { s with
          irqEn := w.getLsbD 2, single := w.getLsbD 1, response := none
          busy := lines != 0#16, done := lines == 0#16, cfgErr := false, errcode := 0#4
          nlines := lines, line := 0#16, seg := 0#3, pos := 0#10, sub := 0#5, sn := 0#32, phase := 0#10
          changed := marks }) ∧
    (s.widthA ≠ 909#16 →
      exec (.wrCtrl w) s = .next
        { s with
          irqEn := w.getLsbD 2, single := w.getLsbD 1, response := none
          done := false, cfgErr := true, errcode := 1#4 }) ∧
    (s.widthA = 909#16 → w.getLsbD 1 = false → s.widthB ≠ 909#16 →
      exec (.wrCtrl w) s = .next
        { s with
          irqEn := w.getLsbD 2, single := w.getLsbD 1, response := none
          done := false, cfgErr := true, errcode := 2#4 })

/-- R111: every host operation completes; a read returns a word, a write nothing; and apart from START none writes the
run's state: position, SN, PHASE, NLINES, the flags, the hidden registers, the images, the output stream. -/
def Obligations.HostOperationsKeepTheRun : Prop :=
  ∀ (r : HbRequest) (s : State), ∃ i t, decode (.hb r) = .instr i ∧ exec i s = .next t ∧
    (r.we = false → ∃ rdata, t = { s with response := some rdata }) ∧
    (r.we = true → t.response = none) ∧
    (¬ (r.we = true ∧ r.addr = 0x00#8 ∧ r.wdata.getLsbD 0 = true ∧ s.busy = false) →
      t.line = s.line ∧ t.seg = s.seg ∧ t.pos = s.pos ∧ t.sub = s.sub ∧ t.sn = s.sn ∧ t.phase = s.phase ∧
      t.nlines = s.nlines ∧ t.busy = s.busy ∧ t.done = s.done ∧ t.cfgErr = s.cfgErr ∧ t.errcode = s.errcode ∧
      t.sym = s.sym ∧ t.pixPending = s.pixPending ∧ t.outHold = s.outHold ∧ t.oversample = s.oversample ∧
      (∀ p, pixelAt t p = pixelAt s p) ∧ t.pixelReady = s.pixelReady ∧ t.sinkReady = s.sinkReady ∧
      t.changed = s.changed ∧ t.freeNext = s.freeNext ∧ t.stream = s.stream ∧ t.requests = s.requests ∧
      t.inputs = s.inputs)

/-! ## Segment operations -/

/-- SYNC_A and SYNC_B at the first sample of a symbol emit the codeword's character POS (R84, R88). -/
def Obligations.SyncOperationsEmitTheCodewords : Prop :=
  decode (.seg 0x0027#16) = .instr .syncA ∧ decode (.seg 0x1027#16) = .instr .syncB ∧
  ∀ s : State, s.sub = 0#5 →
    (Ready descSyncA s → exec .syncA s =
      .next (afterSample descSyncA (if (0x0666666600#39).getLsbD (38 - s.pos.toNat) then 255#8 else 0#8) s)) ∧
    (Ready descSyncB s → exec .syncB s =
      .next (afterSample descSyncB (if (0x0739CE739C#39).getLsbD (38 - s.pos.toNat) then 255#8 else 0#8) s))

/-- SPACE_A emits level 0 and SPACE_B level 255 (R85, R89). -/
def Obligations.SpaceOperationsEmitTheirLevels : Prop :=
  decode (.seg 0x202F#16) = .instr .spaceA ∧ decode (.seg 0x382F#16) = .instr .spaceB ∧
  ∀ s : State, s.sub = 0#5 →
    (Ready descSpaceA s → exec .spaceA s = .next (afterSample descSpaceA 0#8 s)) ∧
    (Ready descSpaceB s → exec .spaceB s = .next (afterSample descSpaceB 255#8 s))

/-- IMAGE_A and IMAGE_B on a line below the effective height read the pixel (POS, LINE) of the source channel, with one
request, and emit it (R83, R86, R90). The pixel did not change during the run. -/
def Obligations.ImageOperationsEmitThePixel : Prop :=
  decode (.seg 0x438D#16) = .instr .imageA ∧ decode (.seg 0x538D#16) = .instr .imageB ∧
  ∀ s : State, s.sub = 0#5 → s.pixPending = false → s.pixelReady = true →
    (Ready descImageA s → s.line.toNat < s.heightA.toNat → pixelAddr ⟨.a, s.pos, s.line⟩ ∉ s.changed →
      exec .imageA s = .next (afterSample descImageA (pixelAt s ⟨.a, s.pos, s.line⟩)
        { s with requests := s.requests ++ [⟨.a, s.pos, s.line⟩] })) ∧
    (Ready descImageB s → s.line.toNat < (if s.single then s.heightA else s.heightB).toNat →
      pixelAddr ⟨if s.single then .a else .b, s.pos, s.line⟩ ∉ s.changed →
      exec .imageB s =
        .next (afterSample descImageB (pixelAt s ⟨if s.single then .a else .b, s.pos, s.line⟩)
          { s with requests := s.requests ++ [⟨if s.single then .a else .b, s.pos, s.line⟩] }))

/-- IMAGE_A and IMAGE_B on a line at or past the effective height emit black and read nothing (R86, R90, R95). -/
def Obligations.ImageOperationsPadWithBlack : Prop :=
  ∀ s : State, s.sub = 0#5 →
    (Ready descImageA s → s.heightA.toNat ≤ s.line.toNat →
      exec .imageA s = .next (afterSample descImageA 0#8 s)) ∧
    (Ready descImageB s → (if s.single then s.heightA else s.heightB).toNat ≤ s.line.toNat →
      exec .imageB s = .next (afterSample descImageB 0#8 s))

/-- TELEM_A and TELEM_B emit the telemetry value of the line, the LUT entry of line[6:3] (R68, R87, R91). -/
def Obligations.TelemetryOperationsEmitTheWedge : Prop :=
  decode (.seg 0x602D#16) = .instr .telemA ∧ decode (.seg 0x702D#16) = .instr .telemB ∧
  ∀ s : State, s.sub = 0#5 →
    (Ready descTelemA s →
      exec .telemA s = .next (afterSample descTelemA (telemLut (s.line.toNat % 128 / 8)) s)) ∧
    (Ready descTelemB s →
      exec .telemB s = .next (afterSample descTelemB (telemLut (s.line.toNat % 128 / 8)) s))

/-- The samples of a symbol after its first use SYM, without a pixel read, in all eight operations (R95). -/
def Obligations.LaterSamplesUseTheLatchedSymbol : Prop :=
  ∀ p ∈ segmentOps, ∀ s : State, s.sub ≠ 0#5 → Ready p.2 s → exec p.1 s = .next (afterSample p.2 s.sym s)

/-- R92: the telemetry value repeats every 128 lines and is the LUT's entry for the wedge (R68). -/
def Obligations.TelemetryIsTheLutAndPeriodic : Prop :=
  (∀ line : Half, telem line = telemLut (line.toNat % 128 / 8)) ∧
  ∀ line : Half, telem (line + 128#16) = telem line

/-- A PixRead that the pixel source does not answer: the request is issued once, the step waits, and nothing else
changes (R50, R52, R154). -/
def Obligations.SilentPixelSourceStallsTheStep : Prop :=
  ∀ p ∈ segmentOps, ∀ s : State, Enabled p.2 s → s.outHold = none → needsPixel p.2 s = true → s.pixelReady = false →
    (s.pixPending = false →
      exec p.1 s = .next { s with pixPending := true, requests := s.requests ++ [pixelRequest p.2 s] }) ∧
    (s.pixPending = true → exec p.1 s = .next s)

/-- An outstanding request that the pixel source answers completes the step, and no second request is issued (R50,
R52). -/
def Obligations.AnsweredRequestCompletesTheStep : Prop :=
  ∀ p ∈ segmentOps, ∀ s : State, Ready p.2 s → needsPixel p.2 s = true → s.pixelReady = true →
    s.pixPending = true → pixelAddr (pixelRequest p.2 s) ∉ s.changed →
    exec p.1 s = .next (afterSample p.2 (pixelAt s (pixelRequest p.2 s)) { s with pixPending := false })

/-- A sink that does not accept: the byte is held, and SN, PHASE and the position wait with it; once it accepts, the
held byte is emitted as it was (R53). A step that finds the sink silent loads SYM and holds the byte, with a symbol of
its own or with an answered pixel; it commits nothing else. That SYM is loaded before the acceptance is the model's
(log 5; R107 commits SYM with the acceptance), as is the free value of a changed pixel (log 7). -/
def Obligations.HeldByteWaitsForTheSink : Prop :=
  ∀ p ∈ segmentOps, ∀ s : State, Enabled p.2 s →
    (∀ byte, s.outHold = some byte → s.sinkReady = false → exec p.1 s = .next s) ∧
    (∀ byte, s.outHold = some byte → s.sinkReady = true →
      exec p.1 s = .next (advance p.2
        { s with
          outHold := none, stream := s.stream ++ [byte], sn := s.sn + 1#32
          phase := nextPhase s.oversample s.phase })) ∧
    (s.outHold = none → s.sinkReady = false → needsPixel p.2 s = false →
      let v := if s.sub = 0#5 then fixedSymbol p.2 s else s.sym
      exec p.1 s = .next { s with sym := v, outHold := some (modulatorByte s.oversample v s.phase) }) ∧
    (s.outHold = none → s.sinkReady = false → needsPixel p.2 s = true → s.pixelReady = true →
      let marked := pixelAddr (pixelRequest p.2 s) ∈ s.changed
      let v := if marked then Config.freePixel s.freeNext else pixelAt s (pixelRequest p.2 s)
      exec p.1 s = .next
        { s with
          sym := v, outHold := some (modulatorByte s.oversample v s.phase), pixPending := false
          requests := if s.pixPending then s.requests else s.requests ++ [pixelRequest p.2 s]
          freeNext := if marked then s.freeNext + 1 else s.freeNext })

/-- A pixel that changed during the run is read as a free value, for every value of the counter, whether its request is
issued now or outstanding; the sample and its step are as for any other pixel (R153). The marks and the counter are the
model's (log 7): a START that passes the check empties the marks. -/
def Obligations.ChangedPixelReadsAFreeValue : Prop :=
  (∀ p ∈ segmentOps, ∀ s : State, Ready p.2 s → needsPixel p.2 s = true → s.pixelReady = true →
    pixelAddr (pixelRequest p.2 s) ∈ s.changed →
    exec p.1 s = .next (afterSample p.2 (Config.freePixel s.freeNext)
      { s with
        pixPending := false
        requests := if s.pixPending then s.requests else s.requests ++ [pixelRequest p.2 s]
        freeNext := s.freeNext + 1 })) ∧
  ∀ (w : Word) (s : State), s.busy = false → w.getLsbD 0 = true → s.widthA = 909#16 →
    (w.getLsbD 1 = true ∨ s.widthB = 909#16) → ∃ t, exec (.wrCtrl w) s = .next t ∧ t.changed = []

/-- The sequencer advance in its five cases (R94). -/
def Obligations.AdvanceMovesByOneSample : Prop :=
  ∀ (d : Descriptor) (s : State),
    (s.sub.toNat + 1 < s.oversample.toNat → advance d s = { s with sub := s.sub + 1#5 }) ∧
    (s.oversample.toNat ≤ s.sub.toNat + 1 →
      (s.pos.toNat + 1 < d.len.toNat → advance d s = { s with sub := 0#5, pos := s.pos + 1#10 }) ∧
      (d.len.toNat ≤ s.pos.toNat + 1 →
        (s.seg ≠ 7#3 → advance d s = { s with sub := 0#5, pos := 0#10, seg := s.seg + 1#3 }) ∧
        (s.seg = 7#3 →
          (s.line + 1#16 ≠ s.nlines →
            advance d s = { s with sub := 0#5, pos := 0#10, seg := 0#3, line := s.line + 1#16 }) ∧
          (s.line + 1#16 = s.nlines →
            advance d s =
              { s with sub := 0#5, pos := 0#10, seg := 0#3, line := s.line + 1#16, busy := false, done := true }))))

/-- What a segment operation leaves unchanged, in all its slots: the configuration, IRQ_EN, the error flags, NLINES, every
pixel, the bus response, the environment; and it adds at most one byte and one request (R107). -/
def Obligations.SegmentOperationsFrame : Prop :=
  ∀ p ∈ segmentOps, ∀ s t : State, exec p.1 s = .next t →
    t.oversample = s.oversample ∧ t.single = s.single ∧ t.irqEn = s.irqEn ∧ t.cfgErr = s.cfgErr ∧
    t.errcode = s.errcode ∧ t.widthA = s.widthA ∧ t.widthB = s.widthB ∧ t.heightA = s.heightA ∧
    t.heightB = s.heightB ∧ t.nlines = s.nlines ∧ (∀ q, pixelAt t q = pixelAt s q) ∧ t.response = s.response ∧
    t.pixelReady = s.pixelReady ∧ t.sinkReady = s.sinkReady ∧ t.changed = s.changed ∧ t.inputs = s.inputs ∧
    ((t.stream = s.stream ∧ t.sn = s.sn ∧ t.phase = s.phase ∧ t.line = s.line ∧ t.seg = s.seg ∧ t.pos = s.pos ∧
        t.sub = s.sub ∧ t.busy = s.busy ∧ t.done = s.done) ∨
      ∃ byte, t.stream = s.stream ++ [byte] ∧ t.sn = s.sn + 1#32 ∧ t.phase = nextPhase s.oversample s.phase) ∧
    (t.requests = s.requests ∨ t.requests = s.requests ++ [pixelRequest p.2 s])

/-- R51: the pixel requests a segment operation issues lie in the pixel source's contract: a column below 909 and a row
below the source channel's height. -/
def Obligations.PixelRequestsLieInTheContract : Prop :=
  ∀ p ∈ segmentOps, ∀ s t : State, exec p.1 s = .next t → t.requests ≠ s.requests →
    ∃ q : PixRequest, t.requests = s.requests ++ [q] ∧ q.x.toNat < 909 ∧ q.x = s.pos ∧ q.y = s.line ∧
      q.y.toNat < (match q.ch with | .a => s.heightA | .b => s.heightB).toNat ∧
      (s.single = true → q.ch = .a) ∧ s.sub = 0#5 ∧ p.2.op = .image

/-- R109 (reject) and logs 13, 14: a segment operation with a PHASE no run reaches, or a POS outside the segment,
faults. The positions' fault is the model's choice. -/
def Obligations.UnreachablePositionsFault : Prop :=
  ∀ p ∈ segmentOps, ∀ s : State, s.busy = true →
    (¬ (s.phase.toNat < 26 * s.oversample.toNat ∧ s.phase.toNat % Nat.gcd 15 (26 * s.oversample.toNat) = 0) →
      exec p.1 s = .fault .phaseUnreachable) ∧
    (phaseReachable s.oversample s.phase = true → p.2.len.toNat ≤ s.pos.toNat →
      exec p.1 s = .fault .positionOutsideSegment)

/-- The times at which the pixel source and the sink answer do not change what a sample does: a slot in which one of
them stays silent, followed by one in which it answers, leaves what one slot leaves (R155). -/
def Obligations.StallsDoNotChangeTheSample : Prop :=
  ∀ p ∈ segmentOps, ∀ s t : State, Enabled p.2 s → s.outHold = none →
    exec p.1 { s with pixelReady := true, sinkReady := true } = .next t →
    (∃ u, exec p.1 { s with pixelReady := true, sinkReady := false } = .next u ∧
      exec p.1 { u with sinkReady := true } = .next t) ∧
    (needsPixel p.2 s = true →
      ∃ u, exec p.1 { s with pixelReady := false, sinkReady := true } = .next u ∧
        exec p.1 { u with pixelReady := true } = .next t)

/-- R157: in single-image mode a segment operation does not depend on WIDTH_B, HEIGHT_B or the pixels of image B: two
states that agree but for those registers, the pixels of image B and the marks on them (log 7) stay so. -/
def Obligations.SingleImageModeIgnoresImageB : Prop :=
  ∀ p ∈ segmentOps, ∀ (s t : State) (width height : Half) (pixels : List Host.Cell) (marks : List Nat),
    s.single = true →
    (∀ q : PixRequest, q.ch = .a →
      memRead pixels (pixelAddr q) = pixelAt s q ∧ (pixelAddr q ∈ marks ↔ pixelAddr q ∈ s.changed)) →
    exec p.1 s = .next t →
    exec p.1 { s with widthB := width, heightB := height, pixels := pixels, changed := marks } =
      .next { t with widthB := width, heightB := height, pixels := pixels, changed := marks }

/-! ## The modulator -/

/-- R104: symbol 0, and every symbol at a zero crossing, is the byte 128. -/
def Obligations.SilenceAndZeroCrossingsAre128 : Prop :=
  (∀ (os : BitVec 5) (k : BitVec 10), modulatorByte os 0#8 k = 128#8) ∧
  ∀ (os : BitVec 5) (v : Byte), 1 ≤ os.toNat → modulatorByte os v 0#10 = 128#8 ∧
    modulatorByte os v (BitVec.ofNat 10 (13 * os.toNat)) = 128#8

/-- R65, R104: every output byte lies in 38..217, for every OVERSAMPLE, symbol and phase index below M. -/
def Obligations.OutputBytesLieBetween38And217 : Prop :=
  ∀ (os : BitVec 5) (v : Byte) (k : BitVec 10), k.toNat < 26 * os.toNat →
    38 ≤ (modulatorByte os v k).toNat ∧ (modulatorByte os v k).toNat ≤ 217

/-- R109: for OVERSAMPLE = 3, Q is the table on the reachable phase indices, a PHASE outside its rows faults, and no state
of the invariant has one. -/
def Obligations.OutputBytesAreTheTableOfOversample3 : Prop :=
  (∀ (v : Byte) (k : Fin 26),
    modulatorByte 3#5 v (BitVec.ofNat 10 (3 * k.val)) = tableByteOs3 v (3 * k.val)) ∧
  (∀ p ∈ segmentOps, ∀ s : State, s.busy = true → s.oversample = 3#5 →
    (∀ k : Fin 26, s.phase.toNat ≠ 3 * k.val) → exec p.1 s = .fault .phaseUnreachable) ∧
  ∀ s : State, Inv s → s.oversample = 3#5 → ∃ k : Fin 26, s.phase.toNat = 3 * k.val

/-- R110: for OVERSAMPLE = 9, Q is the table on the reachable phase indices, a PHASE outside its rows faults, and no state
of the invariant has one. -/
def Obligations.OutputBytesAreTheTableOfOversample9 : Prop :=
  (∀ (v : Byte) (k : Fin 78),
    modulatorByte 9#5 v (BitVec.ofNat 10 (3 * k.val)) = tableByteOs9 v (3 * k.val)) ∧
  (∀ p ∈ segmentOps, ∀ s : State, s.busy = true → s.oversample = 9#5 →
    (∀ k : Fin 78, s.phase.toNat ≠ 3 * k.val) → exec p.1 s = .fault .phaseUnreachable) ∧
  ∀ s : State, Inv s → s.oversample = 9#5 → ∃ k : Fin 78, s.phase.toNat = 3 * k.val

/-- The byte is the exact real quantisation of R103 for OVERSAMPLE = 3 and every reachable phase index:
round_hu(127.5 + 0.35 v sin(2πk/78)), with round_hu(x) = floor(x + 1/2) (R9). How the model computes the sine is its own
(log 12). -/
def Obligations.OutputBytesAreTheExactSineAtOversample3 : Prop :=
  ∀ (v : Byte) (k : Nat), k < 78 → k % 3 = 0 →
    ((modulatorByte 3#5 v (BitVec.ofNat 10 k)).toNat : ℤ) =
      ⌊(127.5 + 0.35 * (v.toNat : ℝ) * Real.sin (2 * Real.pi * k / 78)) + 1 / 2⌋

/-! ## Reset -/

/-- R41: the reset value of every register; SYM's is the model's (log 6) and is not stated. -/
def Obligations.ResetValues : Prop :=
  let s := State.reset
  s.single = false ∧ s.irqEn = false ∧ s.busy = false ∧ s.done = false ∧ s.cfgErr = false ∧ s.errcode = 0#4 ∧
  s.widthA = 0#16 ∧ s.widthB = 0#16 ∧ s.heightA = 0#16 ∧ s.heightB = 0#16 ∧ s.nlines = 0#16 ∧ s.line = 0#16 ∧
  s.seg = 0#3 ∧ s.pos = 0#10 ∧ s.sub = 0#5 ∧ s.sn = 0#32 ∧ s.phase = 0#10 ∧ irq s = false ∧
  s.pixPending = false ∧ s.outHold = none

/-- A Reset in any state, alone or at the same time as an event: the block's registers are at their reset values, the
bytes the sink has accepted stay, and the event comes after it (R147, R148). What the environment and the launch
parameters keep is the model's (log 10). -/
def Obligations.ResetAbandonsTheRun : Prop :=
  ∀ (s : State) (rest : List Input) (same : Option Event), s.inputs = .reset same :: rest →
    ∃ t, step s = .next t ∧
      t.single = false ∧ t.irqEn = false ∧ t.busy = false ∧ t.done = false ∧ t.cfgErr = false ∧ t.errcode = 0#4 ∧
      t.widthA = 0#16 ∧ t.widthB = 0#16 ∧ t.heightA = 0#16 ∧ t.heightB = 0#16 ∧ t.nlines = 0#16 ∧
      t.line = 0#16 ∧ t.seg = 0#3 ∧ t.pos = 0#10 ∧ t.sub = 0#5 ∧ t.sn = 0#32 ∧ t.phase = 0#10 ∧
      irq t = false ∧ t.pixPending = false ∧ t.outHold = none ∧
      t.oversample = s.oversample ∧ t.pixels = s.pixels ∧ t.stream = s.stream ∧ t.requests = s.requests ∧
      t.pixelReady = s.pixelReady ∧ t.sinkReady = s.sinkReady ∧
      (same = none → t.inputs = rest) ∧ (∀ e, same = some e → t.inputs = .event e :: rest)

/-! ## The whole machine -/

/-- Tier 1. The invariant holds at reset. -/
def Obligations.InvariantHoldsAtReset : Prop := Inv State.reset

/-- Tier 3. Every step keeps the invariant: the position stays in the program, SN and PHASE stay those of the position,
the flags stay legal, the images stay in canonical form (R26, R29, R31, R32, R96, R100). -/
def Obligations.InvariantIsKeptByEveryStep : Prop :=
  ∀ s t : State, Inv s → step s = .next t → Inv t

/-- R133, R138: from a state of the invariant every step answers a next state. -/
def Obligations.NoErrorArisesInARun : Prop :=
  ∀ s : State, Inv s → ∃ t, step s = .next t

/-- R30: BUSY rises only with a START that passes the check with lines to send, and falls only with the last sample of
the last line, at TELEM_B, POS = 44 and the last SUB, or with a Reset. -/
def Obligations.BusyRisesAndFallsAsR30Says : Prop :=
  ∀ s t : State, step s = .next t →
    (s.busy = false → t.busy = true →
      ∃ w rest, s.inputs = .event (.host ⟨true, 0x00#8, w⟩) :: rest ∧ w.getLsbD 0 = true ∧
        s.widthA = 909#16 ∧ (w.getLsbD 1 = true ∨ s.widthB = 909#16) ∧ t.nlines ≠ 0#16) ∧
    (s.busy = true → t.busy = false →
      (∃ same rest, s.inputs = .reset same :: rest) ∨
      (s.line + 1#16 = s.nlines ∧ s.seg = 7#3 ∧ s.pos = 44#10 ∧ s.oversample.toNat ≤ s.sub.toNat + 1 ∧
        (Inv s → s.sub.toNat + 1 = s.oversample.toNat) ∧ t.done = true ∧ ∃ byte, t.stream = s.stream ++ [byte]))

/-- R32: CFG_ERR rises only with a START that fails the check. -/
def Obligations.ConfigErrorComesOnlyFromStart : Prop :=
  ∀ s t : State, step s = .next t → s.cfgErr = false → t.cfgErr = true →
    ∃ w rest, s.inputs = .event (.host ⟨true, 0x00#8, w⟩) :: rest ∧ s.busy = false ∧ w.getLsbD 0 = true ∧
      ((s.widthA ≠ 909#16 ∧ t.errcode = 1#4) ∨
        (s.widthA = 909#16 ∧ w.getLsbD 1 = false ∧ s.widthB ≠ 909#16 ∧ t.errcode = 2#4))

/-- R25, R98: SN counts the bytes the sink accepts; a step leaves both, or adds one to both, or sets SN to 0 with the
stream left, and that only in a Reset or an accepted START that passes the check. -/
def Obligations.SnCountsTheAcceptedBytes : Prop :=
  ∀ s t : State, step s = .next t →
    (t.sn = s.sn ∧ t.stream = s.stream) ∨
    (t.sn = s.sn + 1#32 ∧ ∃ byte, t.stream = s.stream ++ [byte]) ∨
    (t.sn = 0#32 ∧ t.stream = s.stream ∧
      ((∃ same rest, s.inputs = .reset same :: rest) ∨
        ∃ w rest, s.inputs = .event (.host ⟨true, 0x00#8, w⟩) :: rest ∧ s.busy = false ∧ w.getLsbD 0 = true ∧
          s.widthA = 909#16 ∧ (w.getLsbD 1 = true ∨ s.widthB = 909#16)))

/-- R151: while BUSY = 1 no step but a Reset changes the configuration registers, SINGLE or NLINES. -/
def Obligations.ConfigurationIsFrozenDuringARun : Prop :=
  ∀ s t : State, step s = .next t → s.busy = true → (∀ same rest, s.inputs ≠ .reset same :: rest) →
    t.widthA = s.widthA ∧ t.widthB = s.widthB ∧ t.heightA = s.heightA ∧ t.heightB = s.heightB ∧
    t.single = s.single ∧ t.nlines = s.nlines ∧ t.oversample = s.oversample

/-- R108: PHASE is 0 at the first sample of every line. -/
def Obligations.EveryLineStartsAtPhaseZero : Prop :=
  ∀ s : State, Inv s → s.seg = 0#3 → s.pos = 0#10 → s.sub = 0#5 → s.phase = 0#10

/-- R156: SN determines LINE and PHASE. -/
def Obligations.SnDeterminesLineAndPhase : Prop :=
  ∀ s : State, Inv s →
    s.line.toNat = s.sn.toNat / (2080 * s.oversample.toNat) ∧
    s.phase.toNat = 15 * s.sn.toNat % (26 * s.oversample.toNat)

/-- R108: in single-image mode the Image and Telemetry segments of channel B are byte for byte those of channel A, on
every line. -/
def Obligations.SingleImageImageAndTelemetryBytesAreIdentical : Prop :=
  ∀ (s : State) (line offset i : Nat), 1 ≤ s.oversample.toNat → s.single = true → 86 ≤ offset → offset < 1040 →
    i < s.oversample.toNat →
    signalByte s ((line * 2080 + (offset + 1040)) * s.oversample.toNat + i) =
      signalByte s ((line * 2080 + offset) * s.oversample.toNat + i)

/-- Whatever the interleaving with host accesses and the response times of the pixel source and the sink, the bytes
accepted since START are the first SN bytes of the run's signal: the byte of sample n is Q of the symbol at n's line and
offset at the phase (15 n) mod M (R54, R81, R96, R100, R155). Left out of the inputs are Reset, image changes, and CTRL
writes with START, those too that BUSY = 1 makes the block ignore. -/
def Obligations.OutputIsAPrefixOfTheSignal : Prop :=
  ∀ (s t : State) (k : Nat), Inv s → s.busy = true → s.sn = 0#32 → s.outHold = none → s.changed = [] →
    (∀ x ∈ s.inputs, quietInput x) → Host.Core.run Sys2Proof.core k s = .next t →
    t.stream = s.stream ++ (List.range t.sn.toNat).map (signalByte s)

/-- R55: a run that passes the check emits exactly NLINES × 2080 × OVERSAMPLE bytes, after which BUSY = 0 and DONE = 1;
a run that is rejected emits none. This holds for every interleaving without Reset or another START, also if images
change or the environment stalls. A run whose environment answers at once does end: that clause rests on the model's
order of events, by which a busy block with no input waiting does a SampleStep in every step (log 3), and on the
environment's lines (log 4). -/
def Obligations.RunEmitsExactlyItsSamples : Prop :=
  ∀ (s : State) (w : Word) (rest : List Input), Inv s → s.busy = false →
    s.inputs = .event (.host ⟨true, 0x00#8, w⟩) :: rest → w.getLsbD 0 = true → (∀ x ∈ rest, continuesRun x) →
    (s.widthA = 909#16 → (w.getLsbD 1 = true ∨ s.widthB = 909#16) →
      let lines := max s.heightA.toNat (if w.getLsbD 1 then s.heightA else s.heightB).toNat
      let total := lines * 2080 * s.oversample.toNat
      (∀ k, ∃ u, Host.Core.run Sys2Proof.core (k + 1) s = .next u ∧ u.nlines.toNat = lines ∧
        (u.busy = true → u.stream.length < s.stream.length + total) ∧
        (u.busy = false → u.done = true ∧ u.stream.length = s.stream.length + total)) ∧
      (s.pixelReady = true → s.sinkReady = true → rest = [] →
        ∃ u, Host.Core.run Sys2Proof.core (total + 1) s = .next u ∧ u.busy = false)) ∧
    ((s.widthA ≠ 909#16 ∨ (w.getLsbD 1 = false ∧ s.widthB ≠ 909#16)) →
      ∀ k, ∃ u, Host.Core.run Sys2Proof.core (k + 1) s = .next u ∧ u.cfgErr = true ∧ u.busy = false ∧
        u.stream = s.stream)

/-- The byte is the exact real quantisation of R103 for every OVERSAMPLE in 1..31, every symbol and every reachable phase
index: round_hu(127.5 + 0.35 v sin(2πk/M)), with M = 26 × OVERSAMPLE and round_hu(x) = floor(x + 1/2) (R9, R100, R105).
How the model computes the sine is its own (log 12). -/
def Obligations.OutputBytesAreTheExactSine : Prop :=
  ∀ (os : BitVec 5) (v : Byte) (k : Nat), 1 ≤ os.toNat → k < 26 * os.toNat →
    k % Nat.gcd 15 (26 * os.toNat) = 0 →
    ((modulatorByte os v (BitVec.ofNat 10 k)).toNat : ℤ) =
      ⌊(127.5 + 0.35 * (v.toNat : ℝ) * Real.sin (2 * Real.pi * k / (26 * os.toNat))) + 1 / 2⌋
end

