-- ==== Sys2Proof/Laws/Decode.lean ====
section
/-! SUPPORT. What the segment ROM decodes to. -/

namespace Sys2Proof.Machine

/-- The segment operation of an index. -/
def segmentInstrAt (n : BitVec 3) : Instr :=
  match n.toNat with
  | 0 => .syncA
  | 1 => .spaceA
  | 2 => .imageA
  | 3 => .telemA
  | 4 => .syncB
  | 5 => .spaceB
  | 6 => .imageB
  | _ => .telemB

theorem decode_segDesc (n : BitVec 3) : decode (.seg (segDesc n)) = .instr (segmentInstrAt n) := by
  revert n; decide

theorem exec_segmentInstrAt (n : BitVec 3) (s : State) :
    exec (segmentInstrAt n) s = sampleStep (segDescriptor n) s := by
  have h : n = 0#3 ∨ n = 1#3 ∨ n = 2#3 ∨ n = 3#3 ∨ n = 4#3 ∨ n = 5#3 ∨ n = 6#3 ∨ n = 7#3 := by
    revert n; decide
  rcases h with rfl | rfl | rfl | rfl | rfl | rfl | rfl | rfl <;> rfl

/-- Running the descriptor of an index is a SampleStep at that descriptor. -/
theorem runPacket_segDesc (n : BitVec 3) (s : State) :
    runPacket (.seg (segDesc n)) s = sampleStep (segDescriptor n) s := by
  unfold runPacket
  rw [decode_segDesc]
  exact exec_segmentInstrAt n s

theorem segDescriptor_len (n : BitVec 3) : (segDescriptor n).len.toNat = segLen n := by
  revert n; decide

/-- A segment ends where the next begins. -/
theorem segStart_succ (n : BitVec 3) (h : n.toNat < 7) : segStart (n + 1#3) = segStart n + segLen n := by
  revert n; decide

/-- The last segment ends with the line. -/
theorem segStart_last : segStart 7#3 + segLen 7#3 = lineSymbols := rfl

theorem segLen_pos (n : BitVec 3) : 0 < segLen n := by revert n; decide

end Sys2Proof.Machine
end

