-- ==== Sys2Proof/Laws/State.lean ====
section
/-! SUPPORT. One lemma per field and update of State, true by unfolding, so that no later proof unfolds a record
update. -/

namespace Sys2Proof.Machine

/-! ## respond -/

@[simp] theorem respond_oversample (w : Word) (s : State) : (respond w s).oversample = s.oversample := rfl
@[simp] theorem respond_single (w : Word) (s : State) : (respond w s).single = s.single := rfl
@[simp] theorem respond_irqEn (w : Word) (s : State) : (respond w s).irqEn = s.irqEn := rfl
@[simp] theorem respond_busy (w : Word) (s : State) : (respond w s).busy = s.busy := rfl
@[simp] theorem respond_done (w : Word) (s : State) : (respond w s).done = s.done := rfl
@[simp] theorem respond_cfgErr (w : Word) (s : State) : (respond w s).cfgErr = s.cfgErr := rfl
@[simp] theorem respond_errcode (w : Word) (s : State) : (respond w s).errcode = s.errcode := rfl
@[simp] theorem respond_widthA (w : Word) (s : State) : (respond w s).widthA = s.widthA := rfl
@[simp] theorem respond_widthB (w : Word) (s : State) : (respond w s).widthB = s.widthB := rfl
@[simp] theorem respond_heightA (w : Word) (s : State) : (respond w s).heightA = s.heightA := rfl
@[simp] theorem respond_heightB (w : Word) (s : State) : (respond w s).heightB = s.heightB := rfl
@[simp] theorem respond_nlines (w : Word) (s : State) : (respond w s).nlines = s.nlines := rfl
@[simp] theorem respond_line (w : Word) (s : State) : (respond w s).line = s.line := rfl
@[simp] theorem respond_seg (w : Word) (s : State) : (respond w s).seg = s.seg := rfl
@[simp] theorem respond_pos (w : Word) (s : State) : (respond w s).pos = s.pos := rfl
@[simp] theorem respond_sub (w : Word) (s : State) : (respond w s).sub = s.sub := rfl
@[simp] theorem respond_sn (w : Word) (s : State) : (respond w s).sn = s.sn := rfl
@[simp] theorem respond_phase (w : Word) (s : State) : (respond w s).phase = s.phase := rfl
@[simp] theorem respond_sym (w : Word) (s : State) : (respond w s).sym = s.sym := rfl
@[simp] theorem respond_pixPending (w : Word) (s : State) : (respond w s).pixPending = s.pixPending := rfl
@[simp] theorem respond_outHold (w : Word) (s : State) : (respond w s).outHold = s.outHold := rfl
@[simp] theorem respond_pixels (w : Word) (s : State) : (respond w s).pixels = s.pixels := rfl
@[simp] theorem respond_stream (w : Word) (s : State) : (respond w s).stream = s.stream := rfl
@[simp] theorem respond_requests (w : Word) (s : State) : (respond w s).requests = s.requests := rfl
@[simp] theorem respond_response (w : Word) (s : State) : (respond w s).response = some w := rfl
@[simp] theorem respond_pixelReady (w : Word) (s : State) : (respond w s).pixelReady = s.pixelReady := rfl
@[simp] theorem respond_sinkReady (w : Word) (s : State) : (respond w s).sinkReady = s.sinkReady := rfl
@[simp] theorem respond_changed (w : Word) (s : State) : (respond w s).changed = s.changed := rfl
@[simp] theorem respond_freeNext (w : Word) (s : State) : (respond w s).freeNext = s.freeNext := rfl
@[simp] theorem respond_inputs (w : Word) (s : State) : (respond w s).inputs = s.inputs := rfl

/-! ## acknowledge -/

@[simp] theorem acknowledge_oversample (s : State) : (acknowledge s).oversample = s.oversample := rfl
@[simp] theorem acknowledge_single (s : State) : (acknowledge s).single = s.single := rfl
@[simp] theorem acknowledge_irqEn (s : State) : (acknowledge s).irqEn = s.irqEn := rfl
@[simp] theorem acknowledge_busy (s : State) : (acknowledge s).busy = s.busy := rfl
@[simp] theorem acknowledge_done (s : State) : (acknowledge s).done = s.done := rfl
@[simp] theorem acknowledge_cfgErr (s : State) : (acknowledge s).cfgErr = s.cfgErr := rfl
@[simp] theorem acknowledge_errcode (s : State) : (acknowledge s).errcode = s.errcode := rfl
@[simp] theorem acknowledge_widthA (s : State) : (acknowledge s).widthA = s.widthA := rfl
@[simp] theorem acknowledge_widthB (s : State) : (acknowledge s).widthB = s.widthB := rfl
@[simp] theorem acknowledge_heightA (s : State) : (acknowledge s).heightA = s.heightA := rfl
@[simp] theorem acknowledge_heightB (s : State) : (acknowledge s).heightB = s.heightB := rfl
@[simp] theorem acknowledge_nlines (s : State) : (acknowledge s).nlines = s.nlines := rfl
@[simp] theorem acknowledge_line (s : State) : (acknowledge s).line = s.line := rfl
@[simp] theorem acknowledge_seg (s : State) : (acknowledge s).seg = s.seg := rfl
@[simp] theorem acknowledge_pos (s : State) : (acknowledge s).pos = s.pos := rfl
@[simp] theorem acknowledge_sub (s : State) : (acknowledge s).sub = s.sub := rfl
@[simp] theorem acknowledge_sn (s : State) : (acknowledge s).sn = s.sn := rfl
@[simp] theorem acknowledge_phase (s : State) : (acknowledge s).phase = s.phase := rfl
@[simp] theorem acknowledge_sym (s : State) : (acknowledge s).sym = s.sym := rfl
@[simp] theorem acknowledge_pixPending (s : State) : (acknowledge s).pixPending = s.pixPending := rfl
@[simp] theorem acknowledge_outHold (s : State) : (acknowledge s).outHold = s.outHold := rfl
@[simp] theorem acknowledge_pixels (s : State) : (acknowledge s).pixels = s.pixels := rfl
@[simp] theorem acknowledge_stream (s : State) : (acknowledge s).stream = s.stream := rfl
@[simp] theorem acknowledge_requests (s : State) : (acknowledge s).requests = s.requests := rfl
@[simp] theorem acknowledge_response (s : State) : (acknowledge s).response = none := rfl
@[simp] theorem acknowledge_pixelReady (s : State) : (acknowledge s).pixelReady = s.pixelReady := rfl
@[simp] theorem acknowledge_sinkReady (s : State) : (acknowledge s).sinkReady = s.sinkReady := rfl
@[simp] theorem acknowledge_changed (s : State) : (acknowledge s).changed = s.changed := rfl
@[simp] theorem acknowledge_freeNext (s : State) : (acknowledge s).freeNext = s.freeNext := rfl
@[simp] theorem acknowledge_inputs (s : State) : (acknowledge s).inputs = s.inputs := rfl

/-! ## clearOutcome -/

@[simp] theorem clearOutcome_oversample (s : State) : (clearOutcome s).oversample = s.oversample := rfl
@[simp] theorem clearOutcome_single (s : State) : (clearOutcome s).single = s.single := rfl
@[simp] theorem clearOutcome_irqEn (s : State) : (clearOutcome s).irqEn = s.irqEn := rfl
@[simp] theorem clearOutcome_busy (s : State) : (clearOutcome s).busy = s.busy := rfl
@[simp] theorem clearOutcome_done (s : State) : (clearOutcome s).done = false := rfl
@[simp] theorem clearOutcome_cfgErr (s : State) : (clearOutcome s).cfgErr = false := rfl
@[simp] theorem clearOutcome_errcode (s : State) : (clearOutcome s).errcode = 0#4 := rfl
@[simp] theorem clearOutcome_widthA (s : State) : (clearOutcome s).widthA = s.widthA := rfl
@[simp] theorem clearOutcome_widthB (s : State) : (clearOutcome s).widthB = s.widthB := rfl
@[simp] theorem clearOutcome_heightA (s : State) : (clearOutcome s).heightA = s.heightA := rfl
@[simp] theorem clearOutcome_heightB (s : State) : (clearOutcome s).heightB = s.heightB := rfl
@[simp] theorem clearOutcome_nlines (s : State) : (clearOutcome s).nlines = s.nlines := rfl
@[simp] theorem clearOutcome_line (s : State) : (clearOutcome s).line = s.line := rfl
@[simp] theorem clearOutcome_seg (s : State) : (clearOutcome s).seg = s.seg := rfl
@[simp] theorem clearOutcome_pos (s : State) : (clearOutcome s).pos = s.pos := rfl
@[simp] theorem clearOutcome_sub (s : State) : (clearOutcome s).sub = s.sub := rfl
@[simp] theorem clearOutcome_sn (s : State) : (clearOutcome s).sn = s.sn := rfl
@[simp] theorem clearOutcome_phase (s : State) : (clearOutcome s).phase = s.phase := rfl
@[simp] theorem clearOutcome_sym (s : State) : (clearOutcome s).sym = s.sym := rfl
@[simp] theorem clearOutcome_pixPending (s : State) : (clearOutcome s).pixPending = s.pixPending := rfl
@[simp] theorem clearOutcome_outHold (s : State) : (clearOutcome s).outHold = s.outHold := rfl
@[simp] theorem clearOutcome_pixels (s : State) : (clearOutcome s).pixels = s.pixels := rfl
@[simp] theorem clearOutcome_stream (s : State) : (clearOutcome s).stream = s.stream := rfl
@[simp] theorem clearOutcome_requests (s : State) : (clearOutcome s).requests = s.requests := rfl
@[simp] theorem clearOutcome_response (s : State) : (clearOutcome s).response = s.response := rfl
@[simp] theorem clearOutcome_pixelReady (s : State) : (clearOutcome s).pixelReady = s.pixelReady := rfl
@[simp] theorem clearOutcome_sinkReady (s : State) : (clearOutcome s).sinkReady = s.sinkReady := rfl
@[simp] theorem clearOutcome_changed (s : State) : (clearOutcome s).changed = s.changed := rfl
@[simp] theorem clearOutcome_freeNext (s : State) : (clearOutcome s).freeNext = s.freeNext := rfl
@[simp] theorem clearOutcome_inputs (s : State) : (clearOutcome s).inputs = s.inputs := rfl

/-! ## raiseConfigError -/

@[simp] theorem raiseConfigError_oversample (c : BitVec 4) (s : State) : (raiseConfigError c s).oversample = s.oversample := rfl
@[simp] theorem raiseConfigError_single (c : BitVec 4) (s : State) : (raiseConfigError c s).single = s.single := rfl
@[simp] theorem raiseConfigError_irqEn (c : BitVec 4) (s : State) : (raiseConfigError c s).irqEn = s.irqEn := rfl
@[simp] theorem raiseConfigError_busy (c : BitVec 4) (s : State) : (raiseConfigError c s).busy = s.busy := rfl
@[simp] theorem raiseConfigError_done (c : BitVec 4) (s : State) : (raiseConfigError c s).done = s.done := rfl
@[simp] theorem raiseConfigError_cfgErr (c : BitVec 4) (s : State) : (raiseConfigError c s).cfgErr = true := rfl
@[simp] theorem raiseConfigError_errcode (c : BitVec 4) (s : State) : (raiseConfigError c s).errcode = c := rfl
@[simp] theorem raiseConfigError_widthA (c : BitVec 4) (s : State) : (raiseConfigError c s).widthA = s.widthA := rfl
@[simp] theorem raiseConfigError_widthB (c : BitVec 4) (s : State) : (raiseConfigError c s).widthB = s.widthB := rfl
@[simp] theorem raiseConfigError_heightA (c : BitVec 4) (s : State) : (raiseConfigError c s).heightA = s.heightA := rfl
@[simp] theorem raiseConfigError_heightB (c : BitVec 4) (s : State) : (raiseConfigError c s).heightB = s.heightB := rfl
@[simp] theorem raiseConfigError_nlines (c : BitVec 4) (s : State) : (raiseConfigError c s).nlines = s.nlines := rfl
@[simp] theorem raiseConfigError_line (c : BitVec 4) (s : State) : (raiseConfigError c s).line = s.line := rfl
@[simp] theorem raiseConfigError_seg (c : BitVec 4) (s : State) : (raiseConfigError c s).seg = s.seg := rfl
@[simp] theorem raiseConfigError_pos (c : BitVec 4) (s : State) : (raiseConfigError c s).pos = s.pos := rfl
@[simp] theorem raiseConfigError_sub (c : BitVec 4) (s : State) : (raiseConfigError c s).sub = s.sub := rfl
@[simp] theorem raiseConfigError_sn (c : BitVec 4) (s : State) : (raiseConfigError c s).sn = s.sn := rfl
@[simp] theorem raiseConfigError_phase (c : BitVec 4) (s : State) : (raiseConfigError c s).phase = s.phase := rfl
@[simp] theorem raiseConfigError_sym (c : BitVec 4) (s : State) : (raiseConfigError c s).sym = s.sym := rfl
@[simp] theorem raiseConfigError_pixPending (c : BitVec 4) (s : State) : (raiseConfigError c s).pixPending = s.pixPending := rfl
@[simp] theorem raiseConfigError_outHold (c : BitVec 4) (s : State) : (raiseConfigError c s).outHold = s.outHold := rfl
@[simp] theorem raiseConfigError_pixels (c : BitVec 4) (s : State) : (raiseConfigError c s).pixels = s.pixels := rfl
@[simp] theorem raiseConfigError_stream (c : BitVec 4) (s : State) : (raiseConfigError c s).stream = s.stream := rfl
@[simp] theorem raiseConfigError_requests (c : BitVec 4) (s : State) : (raiseConfigError c s).requests = s.requests := rfl
@[simp] theorem raiseConfigError_response (c : BitVec 4) (s : State) : (raiseConfigError c s).response = s.response := rfl
@[simp] theorem raiseConfigError_pixelReady (c : BitVec 4) (s : State) : (raiseConfigError c s).pixelReady = s.pixelReady := rfl
@[simp] theorem raiseConfigError_sinkReady (c : BitVec 4) (s : State) : (raiseConfigError c s).sinkReady = s.sinkReady := rfl
@[simp] theorem raiseConfigError_changed (c : BitVec 4) (s : State) : (raiseConfigError c s).changed = s.changed := rfl
@[simp] theorem raiseConfigError_freeNext (c : BitVec 4) (s : State) : (raiseConfigError c s).freeNext = s.freeNext := rfl
@[simp] theorem raiseConfigError_inputs (c : BitVec 4) (s : State) : (raiseConfigError c s).inputs = s.inputs := rfl

/-! ## finishRun -/

@[simp] theorem finishRun_oversample (s : State) : (finishRun s).oversample = s.oversample := rfl
@[simp] theorem finishRun_single (s : State) : (finishRun s).single = s.single := rfl
@[simp] theorem finishRun_irqEn (s : State) : (finishRun s).irqEn = s.irqEn := rfl
@[simp] theorem finishRun_busy (s : State) : (finishRun s).busy = false := rfl
@[simp] theorem finishRun_done (s : State) : (finishRun s).done = true := rfl
@[simp] theorem finishRun_cfgErr (s : State) : (finishRun s).cfgErr = s.cfgErr := rfl
@[simp] theorem finishRun_errcode (s : State) : (finishRun s).errcode = s.errcode := rfl
@[simp] theorem finishRun_widthA (s : State) : (finishRun s).widthA = s.widthA := rfl
@[simp] theorem finishRun_widthB (s : State) : (finishRun s).widthB = s.widthB := rfl
@[simp] theorem finishRun_heightA (s : State) : (finishRun s).heightA = s.heightA := rfl
@[simp] theorem finishRun_heightB (s : State) : (finishRun s).heightB = s.heightB := rfl
@[simp] theorem finishRun_nlines (s : State) : (finishRun s).nlines = s.nlines := rfl
@[simp] theorem finishRun_line (s : State) : (finishRun s).line = s.line := rfl
@[simp] theorem finishRun_seg (s : State) : (finishRun s).seg = s.seg := rfl
@[simp] theorem finishRun_pos (s : State) : (finishRun s).pos = s.pos := rfl
@[simp] theorem finishRun_sub (s : State) : (finishRun s).sub = s.sub := rfl
@[simp] theorem finishRun_sn (s : State) : (finishRun s).sn = s.sn := rfl
@[simp] theorem finishRun_phase (s : State) : (finishRun s).phase = s.phase := rfl
@[simp] theorem finishRun_sym (s : State) : (finishRun s).sym = s.sym := rfl
@[simp] theorem finishRun_pixPending (s : State) : (finishRun s).pixPending = s.pixPending := rfl
@[simp] theorem finishRun_outHold (s : State) : (finishRun s).outHold = s.outHold := rfl
@[simp] theorem finishRun_pixels (s : State) : (finishRun s).pixels = s.pixels := rfl
@[simp] theorem finishRun_stream (s : State) : (finishRun s).stream = s.stream := rfl
@[simp] theorem finishRun_requests (s : State) : (finishRun s).requests = s.requests := rfl
@[simp] theorem finishRun_response (s : State) : (finishRun s).response = s.response := rfl
@[simp] theorem finishRun_pixelReady (s : State) : (finishRun s).pixelReady = s.pixelReady := rfl
@[simp] theorem finishRun_sinkReady (s : State) : (finishRun s).sinkReady = s.sinkReady := rfl
@[simp] theorem finishRun_changed (s : State) : (finishRun s).changed = s.changed := rfl
@[simp] theorem finishRun_freeNext (s : State) : (finishRun s).freeNext = s.freeNext := rfl
@[simp] theorem finishRun_inputs (s : State) : (finishRun s).inputs = s.inputs := rfl

/-! ## holdSample -/

@[simp] theorem holdSample_oversample (s : State) : (holdSample s).oversample = s.oversample := rfl
@[simp] theorem holdSample_single (s : State) : (holdSample s).single = s.single := rfl
@[simp] theorem holdSample_irqEn (s : State) : (holdSample s).irqEn = s.irqEn := rfl
@[simp] theorem holdSample_busy (s : State) : (holdSample s).busy = s.busy := rfl
@[simp] theorem holdSample_done (s : State) : (holdSample s).done = s.done := rfl
@[simp] theorem holdSample_cfgErr (s : State) : (holdSample s).cfgErr = s.cfgErr := rfl
@[simp] theorem holdSample_errcode (s : State) : (holdSample s).errcode = s.errcode := rfl
@[simp] theorem holdSample_widthA (s : State) : (holdSample s).widthA = s.widthA := rfl
@[simp] theorem holdSample_widthB (s : State) : (holdSample s).widthB = s.widthB := rfl
@[simp] theorem holdSample_heightA (s : State) : (holdSample s).heightA = s.heightA := rfl
@[simp] theorem holdSample_heightB (s : State) : (holdSample s).heightB = s.heightB := rfl
@[simp] theorem holdSample_nlines (s : State) : (holdSample s).nlines = s.nlines := rfl
@[simp] theorem holdSample_line (s : State) : (holdSample s).line = s.line := rfl
@[simp] theorem holdSample_seg (s : State) : (holdSample s).seg = s.seg := rfl
@[simp] theorem holdSample_pos (s : State) : (holdSample s).pos = s.pos := rfl
@[simp] theorem holdSample_sub (s : State) : (holdSample s).sub = s.sub := rfl
@[simp] theorem holdSample_sn (s : State) : (holdSample s).sn = s.sn := rfl
@[simp] theorem holdSample_phase (s : State) : (holdSample s).phase = s.phase := rfl
@[simp] theorem holdSample_sym (s : State) : (holdSample s).sym = s.sym := rfl
@[simp] theorem holdSample_pixPending (s : State) : (holdSample s).pixPending = s.pixPending := rfl
@[simp] theorem holdSample_outHold (s : State) : (holdSample s).outHold = some (modulatorByte s.oversample s.sym s.phase) := rfl
@[simp] theorem holdSample_pixels (s : State) : (holdSample s).pixels = s.pixels := rfl
@[simp] theorem holdSample_stream (s : State) : (holdSample s).stream = s.stream := rfl
@[simp] theorem holdSample_requests (s : State) : (holdSample s).requests = s.requests := rfl
@[simp] theorem holdSample_response (s : State) : (holdSample s).response = s.response := rfl
@[simp] theorem holdSample_pixelReady (s : State) : (holdSample s).pixelReady = s.pixelReady := rfl
@[simp] theorem holdSample_sinkReady (s : State) : (holdSample s).sinkReady = s.sinkReady := rfl
@[simp] theorem holdSample_changed (s : State) : (holdSample s).changed = s.changed := rfl
@[simp] theorem holdSample_freeNext (s : State) : (holdSample s).freeNext = s.freeNext := rfl
@[simp] theorem holdSample_inputs (s : State) : (holdSample s).inputs = s.inputs := rfl

/-! ## beginRun -/

@[simp] theorem beginRun_oversample (s : State) : (beginRun s).oversample = s.oversample := rfl
@[simp] theorem beginRun_single (s : State) : (beginRun s).single = s.single := rfl
@[simp] theorem beginRun_irqEn (s : State) : (beginRun s).irqEn = s.irqEn := rfl
@[simp] theorem beginRun_busy (s : State) : (beginRun s).busy = decide (runLines s ≠ 0#16) := rfl
@[simp] theorem beginRun_done (s : State) : (beginRun s).done = decide (runLines s = 0#16) := rfl
@[simp] theorem beginRun_cfgErr (s : State) : (beginRun s).cfgErr = s.cfgErr := rfl
@[simp] theorem beginRun_errcode (s : State) : (beginRun s).errcode = s.errcode := rfl
@[simp] theorem beginRun_widthA (s : State) : (beginRun s).widthA = s.widthA := rfl
@[simp] theorem beginRun_widthB (s : State) : (beginRun s).widthB = s.widthB := rfl
@[simp] theorem beginRun_heightA (s : State) : (beginRun s).heightA = s.heightA := rfl
@[simp] theorem beginRun_heightB (s : State) : (beginRun s).heightB = s.heightB := rfl
@[simp] theorem beginRun_nlines (s : State) : (beginRun s).nlines = runLines s := rfl
@[simp] theorem beginRun_line (s : State) : (beginRun s).line = 0#16 := rfl
@[simp] theorem beginRun_seg (s : State) : (beginRun s).seg = 0#3 := rfl
@[simp] theorem beginRun_pos (s : State) : (beginRun s).pos = 0#10 := rfl
@[simp] theorem beginRun_sub (s : State) : (beginRun s).sub = 0#5 := rfl
@[simp] theorem beginRun_sn (s : State) : (beginRun s).sn = 0#32 := rfl
@[simp] theorem beginRun_phase (s : State) : (beginRun s).phase = 0#10 := rfl
@[simp] theorem beginRun_sym (s : State) : (beginRun s).sym = s.sym := rfl
@[simp] theorem beginRun_pixPending (s : State) : (beginRun s).pixPending = s.pixPending := rfl
@[simp] theorem beginRun_outHold (s : State) : (beginRun s).outHold = s.outHold := rfl
@[simp] theorem beginRun_pixels (s : State) : (beginRun s).pixels = s.pixels := rfl
@[simp] theorem beginRun_stream (s : State) : (beginRun s).stream = s.stream := rfl
@[simp] theorem beginRun_requests (s : State) : (beginRun s).requests = s.requests := rfl
@[simp] theorem beginRun_response (s : State) : (beginRun s).response = s.response := rfl
@[simp] theorem beginRun_pixelReady (s : State) : (beginRun s).pixelReady = s.pixelReady := rfl
@[simp] theorem beginRun_sinkReady (s : State) : (beginRun s).sinkReady = s.sinkReady := rfl
@[simp] theorem beginRun_changed (s : State) : (beginRun s).changed = [] := rfl
@[simp] theorem beginRun_freeNext (s : State) : (beginRun s).freeNext = s.freeNext := rfl
@[simp] theorem beginRun_inputs (s : State) : (beginRun s).inputs = s.inputs := rfl

/-! ## resetBlock -/

@[simp] theorem resetBlock_oversample (s : State) : (resetBlock s).oversample = s.oversample := rfl
@[simp] theorem resetBlock_single (s : State) : (resetBlock s).single = false := rfl
@[simp] theorem resetBlock_irqEn (s : State) : (resetBlock s).irqEn = false := rfl
@[simp] theorem resetBlock_busy (s : State) : (resetBlock s).busy = false := rfl
@[simp] theorem resetBlock_done (s : State) : (resetBlock s).done = false := rfl
@[simp] theorem resetBlock_cfgErr (s : State) : (resetBlock s).cfgErr = false := rfl
@[simp] theorem resetBlock_errcode (s : State) : (resetBlock s).errcode = 0#4 := rfl
@[simp] theorem resetBlock_widthA (s : State) : (resetBlock s).widthA = 0#16 := rfl
@[simp] theorem resetBlock_widthB (s : State) : (resetBlock s).widthB = 0#16 := rfl
@[simp] theorem resetBlock_heightA (s : State) : (resetBlock s).heightA = 0#16 := rfl
@[simp] theorem resetBlock_heightB (s : State) : (resetBlock s).heightB = 0#16 := rfl
@[simp] theorem resetBlock_nlines (s : State) : (resetBlock s).nlines = 0#16 := rfl
@[simp] theorem resetBlock_line (s : State) : (resetBlock s).line = 0#16 := rfl
@[simp] theorem resetBlock_seg (s : State) : (resetBlock s).seg = 0#3 := rfl
@[simp] theorem resetBlock_pos (s : State) : (resetBlock s).pos = 0#10 := rfl
@[simp] theorem resetBlock_sub (s : State) : (resetBlock s).sub = 0#5 := rfl
@[simp] theorem resetBlock_sn (s : State) : (resetBlock s).sn = 0#32 := rfl
@[simp] theorem resetBlock_phase (s : State) : (resetBlock s).phase = 0#10 := rfl
@[simp] theorem resetBlock_sym (s : State) : (resetBlock s).sym = 0#8 := rfl
@[simp] theorem resetBlock_pixPending (s : State) : (resetBlock s).pixPending = false := rfl
@[simp] theorem resetBlock_outHold (s : State) : (resetBlock s).outHold = none := rfl
@[simp] theorem resetBlock_pixels (s : State) : (resetBlock s).pixels = s.pixels := rfl
@[simp] theorem resetBlock_stream (s : State) : (resetBlock s).stream = s.stream := rfl
@[simp] theorem resetBlock_requests (s : State) : (resetBlock s).requests = s.requests := rfl
@[simp] theorem resetBlock_response (s : State) : (resetBlock s).response = none := rfl
@[simp] theorem resetBlock_pixelReady (s : State) : (resetBlock s).pixelReady = s.pixelReady := rfl
@[simp] theorem resetBlock_sinkReady (s : State) : (resetBlock s).sinkReady = s.sinkReady := rfl
@[simp] theorem resetBlock_changed (s : State) : (resetBlock s).changed = s.changed := rfl
@[simp] theorem resetBlock_freeNext (s : State) : (resetBlock s).freeNext = s.freeNext := rfl
@[simp] theorem resetBlock_inputs (s : State) : (resetBlock s).inputs = s.inputs := rfl

end Sys2Proof.Machine
end

