-- ==== Sys2Proof/Laws/Frames.lean ====
section
/-! SUPPORT. What the stages of a SampleStep leave unchanged, one lemma per stage and field. -/

namespace Sys2Proof.Machine

/-! ## advance -/

@[simp] theorem advance_oversample (d : Descriptor) (s : State) : (advance d s).oversample = s.oversample := by
  unfold advance; split_ifs <;> rfl
@[simp] theorem advance_single (d : Descriptor) (s : State) : (advance d s).single = s.single := by
  unfold advance; split_ifs <;> rfl
@[simp] theorem advance_irqEn (d : Descriptor) (s : State) : (advance d s).irqEn = s.irqEn := by
  unfold advance; split_ifs <;> rfl
@[simp] theorem advance_cfgErr (d : Descriptor) (s : State) : (advance d s).cfgErr = s.cfgErr := by
  unfold advance; split_ifs <;> rfl
@[simp] theorem advance_errcode (d : Descriptor) (s : State) : (advance d s).errcode = s.errcode := by
  unfold advance; split_ifs <;> rfl
@[simp] theorem advance_widthA (d : Descriptor) (s : State) : (advance d s).widthA = s.widthA := by
  unfold advance; split_ifs <;> rfl
@[simp] theorem advance_widthB (d : Descriptor) (s : State) : (advance d s).widthB = s.widthB := by
  unfold advance; split_ifs <;> rfl
@[simp] theorem advance_heightA (d : Descriptor) (s : State) : (advance d s).heightA = s.heightA := by
  unfold advance; split_ifs <;> rfl
@[simp] theorem advance_heightB (d : Descriptor) (s : State) : (advance d s).heightB = s.heightB := by
  unfold advance; split_ifs <;> rfl
@[simp] theorem advance_nlines (d : Descriptor) (s : State) : (advance d s).nlines = s.nlines := by
  unfold advance; split_ifs <;> rfl
@[simp] theorem advance_sn (d : Descriptor) (s : State) : (advance d s).sn = s.sn := by
  unfold advance; split_ifs <;> rfl
@[simp] theorem advance_phase (d : Descriptor) (s : State) : (advance d s).phase = s.phase := by
  unfold advance; split_ifs <;> rfl
@[simp] theorem advance_sym (d : Descriptor) (s : State) : (advance d s).sym = s.sym := by
  unfold advance; split_ifs <;> rfl
@[simp] theorem advance_pixPending (d : Descriptor) (s : State) : (advance d s).pixPending = s.pixPending := by
  unfold advance; split_ifs <;> rfl
@[simp] theorem advance_outHold (d : Descriptor) (s : State) : (advance d s).outHold = s.outHold := by
  unfold advance; split_ifs <;> rfl
@[simp] theorem advance_pixels (d : Descriptor) (s : State) : (advance d s).pixels = s.pixels := by
  unfold advance; split_ifs <;> rfl
@[simp] theorem advance_stream (d : Descriptor) (s : State) : (advance d s).stream = s.stream := by
  unfold advance; split_ifs <;> rfl
@[simp] theorem advance_requests (d : Descriptor) (s : State) : (advance d s).requests = s.requests := by
  unfold advance; split_ifs <;> rfl
@[simp] theorem advance_response (d : Descriptor) (s : State) : (advance d s).response = s.response := by
  unfold advance; split_ifs <;> rfl
@[simp] theorem advance_pixelReady (d : Descriptor) (s : State) : (advance d s).pixelReady = s.pixelReady := by
  unfold advance; split_ifs <;> rfl
@[simp] theorem advance_sinkReady (d : Descriptor) (s : State) : (advance d s).sinkReady = s.sinkReady := by
  unfold advance; split_ifs <;> rfl
@[simp] theorem advance_changed (d : Descriptor) (s : State) : (advance d s).changed = s.changed := by
  unfold advance; split_ifs <;> rfl
@[simp] theorem advance_freeNext (d : Descriptor) (s : State) : (advance d s).freeNext = s.freeNext := by
  unfold advance; split_ifs <;> rfl
@[simp] theorem advance_inputs (d : Descriptor) (s : State) : (advance d s).inputs = s.inputs := by
  unfold advance; split_ifs <;> rfl

/-! ## issueRequest -/

@[simp] theorem issueRequest_oversample (d : Descriptor) (s : State) : (issueRequest d s).oversample = s.oversample := by
  unfold issueRequest; split_ifs <;> rfl
@[simp] theorem issueRequest_single (d : Descriptor) (s : State) : (issueRequest d s).single = s.single := by
  unfold issueRequest; split_ifs <;> rfl
@[simp] theorem issueRequest_irqEn (d : Descriptor) (s : State) : (issueRequest d s).irqEn = s.irqEn := by
  unfold issueRequest; split_ifs <;> rfl
@[simp] theorem issueRequest_busy (d : Descriptor) (s : State) : (issueRequest d s).busy = s.busy := by
  unfold issueRequest; split_ifs <;> rfl
@[simp] theorem issueRequest_done (d : Descriptor) (s : State) : (issueRequest d s).done = s.done := by
  unfold issueRequest; split_ifs <;> rfl
@[simp] theorem issueRequest_cfgErr (d : Descriptor) (s : State) : (issueRequest d s).cfgErr = s.cfgErr := by
  unfold issueRequest; split_ifs <;> rfl
@[simp] theorem issueRequest_errcode (d : Descriptor) (s : State) : (issueRequest d s).errcode = s.errcode := by
  unfold issueRequest; split_ifs <;> rfl
@[simp] theorem issueRequest_widthA (d : Descriptor) (s : State) : (issueRequest d s).widthA = s.widthA := by
  unfold issueRequest; split_ifs <;> rfl
@[simp] theorem issueRequest_widthB (d : Descriptor) (s : State) : (issueRequest d s).widthB = s.widthB := by
  unfold issueRequest; split_ifs <;> rfl
@[simp] theorem issueRequest_heightA (d : Descriptor) (s : State) : (issueRequest d s).heightA = s.heightA := by
  unfold issueRequest; split_ifs <;> rfl
@[simp] theorem issueRequest_heightB (d : Descriptor) (s : State) : (issueRequest d s).heightB = s.heightB := by
  unfold issueRequest; split_ifs <;> rfl
@[simp] theorem issueRequest_nlines (d : Descriptor) (s : State) : (issueRequest d s).nlines = s.nlines := by
  unfold issueRequest; split_ifs <;> rfl
@[simp] theorem issueRequest_line (d : Descriptor) (s : State) : (issueRequest d s).line = s.line := by
  unfold issueRequest; split_ifs <;> rfl
@[simp] theorem issueRequest_seg (d : Descriptor) (s : State) : (issueRequest d s).seg = s.seg := by
  unfold issueRequest; split_ifs <;> rfl
@[simp] theorem issueRequest_pos (d : Descriptor) (s : State) : (issueRequest d s).pos = s.pos := by
  unfold issueRequest; split_ifs <;> rfl
@[simp] theorem issueRequest_sub (d : Descriptor) (s : State) : (issueRequest d s).sub = s.sub := by
  unfold issueRequest; split_ifs <;> rfl
@[simp] theorem issueRequest_sn (d : Descriptor) (s : State) : (issueRequest d s).sn = s.sn := by
  unfold issueRequest; split_ifs <;> rfl
@[simp] theorem issueRequest_phase (d : Descriptor) (s : State) : (issueRequest d s).phase = s.phase := by
  unfold issueRequest; split_ifs <;> rfl
@[simp] theorem issueRequest_sym (d : Descriptor) (s : State) : (issueRequest d s).sym = s.sym := by
  unfold issueRequest; split_ifs <;> rfl
@[simp] theorem issueRequest_outHold (d : Descriptor) (s : State) : (issueRequest d s).outHold = s.outHold := by
  unfold issueRequest; split_ifs <;> rfl
@[simp] theorem issueRequest_pixels (d : Descriptor) (s : State) : (issueRequest d s).pixels = s.pixels := by
  unfold issueRequest; split_ifs <;> rfl
@[simp] theorem issueRequest_stream (d : Descriptor) (s : State) : (issueRequest d s).stream = s.stream := by
  unfold issueRequest; split_ifs <;> rfl
@[simp] theorem issueRequest_response (d : Descriptor) (s : State) : (issueRequest d s).response = s.response := by
  unfold issueRequest; split_ifs <;> rfl
@[simp] theorem issueRequest_pixelReady (d : Descriptor) (s : State) : (issueRequest d s).pixelReady = s.pixelReady := by
  unfold issueRequest; split_ifs <;> rfl
@[simp] theorem issueRequest_sinkReady (d : Descriptor) (s : State) : (issueRequest d s).sinkReady = s.sinkReady := by
  unfold issueRequest; split_ifs <;> rfl
@[simp] theorem issueRequest_changed (d : Descriptor) (s : State) : (issueRequest d s).changed = s.changed := by
  unfold issueRequest; split_ifs <;> rfl
@[simp] theorem issueRequest_freeNext (d : Descriptor) (s : State) : (issueRequest d s).freeNext = s.freeNext := by
  unfold issueRequest; split_ifs <;> rfl
@[simp] theorem issueRequest_inputs (d : Descriptor) (s : State) : (issueRequest d s).inputs = s.inputs := by
  unfold issueRequest; split_ifs <;> rfl

/-! ## takeResponse -/

@[simp] theorem takeResponse_oversample (d : Descriptor) (s : State) : (takeResponse d s).oversample = s.oversample := by
  unfold takeResponse; split_ifs <;> rfl
@[simp] theorem takeResponse_single (d : Descriptor) (s : State) : (takeResponse d s).single = s.single := by
  unfold takeResponse; split_ifs <;> rfl
@[simp] theorem takeResponse_irqEn (d : Descriptor) (s : State) : (takeResponse d s).irqEn = s.irqEn := by
  unfold takeResponse; split_ifs <;> rfl
@[simp] theorem takeResponse_busy (d : Descriptor) (s : State) : (takeResponse d s).busy = s.busy := by
  unfold takeResponse; split_ifs <;> rfl
@[simp] theorem takeResponse_done (d : Descriptor) (s : State) : (takeResponse d s).done = s.done := by
  unfold takeResponse; split_ifs <;> rfl
@[simp] theorem takeResponse_cfgErr (d : Descriptor) (s : State) : (takeResponse d s).cfgErr = s.cfgErr := by
  unfold takeResponse; split_ifs <;> rfl
@[simp] theorem takeResponse_errcode (d : Descriptor) (s : State) : (takeResponse d s).errcode = s.errcode := by
  unfold takeResponse; split_ifs <;> rfl
@[simp] theorem takeResponse_widthA (d : Descriptor) (s : State) : (takeResponse d s).widthA = s.widthA := by
  unfold takeResponse; split_ifs <;> rfl
@[simp] theorem takeResponse_widthB (d : Descriptor) (s : State) : (takeResponse d s).widthB = s.widthB := by
  unfold takeResponse; split_ifs <;> rfl
@[simp] theorem takeResponse_heightA (d : Descriptor) (s : State) : (takeResponse d s).heightA = s.heightA := by
  unfold takeResponse; split_ifs <;> rfl
@[simp] theorem takeResponse_heightB (d : Descriptor) (s : State) : (takeResponse d s).heightB = s.heightB := by
  unfold takeResponse; split_ifs <;> rfl
@[simp] theorem takeResponse_nlines (d : Descriptor) (s : State) : (takeResponse d s).nlines = s.nlines := by
  unfold takeResponse; split_ifs <;> rfl
@[simp] theorem takeResponse_line (d : Descriptor) (s : State) : (takeResponse d s).line = s.line := by
  unfold takeResponse; split_ifs <;> rfl
@[simp] theorem takeResponse_seg (d : Descriptor) (s : State) : (takeResponse d s).seg = s.seg := by
  unfold takeResponse; split_ifs <;> rfl
@[simp] theorem takeResponse_pos (d : Descriptor) (s : State) : (takeResponse d s).pos = s.pos := by
  unfold takeResponse; split_ifs <;> rfl
@[simp] theorem takeResponse_sub (d : Descriptor) (s : State) : (takeResponse d s).sub = s.sub := by
  unfold takeResponse; split_ifs <;> rfl
@[simp] theorem takeResponse_sn (d : Descriptor) (s : State) : (takeResponse d s).sn = s.sn := by
  unfold takeResponse; split_ifs <;> rfl
@[simp] theorem takeResponse_phase (d : Descriptor) (s : State) : (takeResponse d s).phase = s.phase := by
  unfold takeResponse; split_ifs <;> rfl
@[simp] theorem takeResponse_outHold (d : Descriptor) (s : State) : (takeResponse d s).outHold = s.outHold := by
  unfold takeResponse; split_ifs <;> rfl
@[simp] theorem takeResponse_pixels (d : Descriptor) (s : State) : (takeResponse d s).pixels = s.pixels := by
  unfold takeResponse; split_ifs <;> rfl
@[simp] theorem takeResponse_stream (d : Descriptor) (s : State) : (takeResponse d s).stream = s.stream := by
  unfold takeResponse; split_ifs <;> rfl
@[simp] theorem takeResponse_requests (d : Descriptor) (s : State) : (takeResponse d s).requests = s.requests := by
  unfold takeResponse; split_ifs <;> rfl
@[simp] theorem takeResponse_response (d : Descriptor) (s : State) : (takeResponse d s).response = s.response := by
  unfold takeResponse; split_ifs <;> rfl
@[simp] theorem takeResponse_pixelReady (d : Descriptor) (s : State) : (takeResponse d s).pixelReady = s.pixelReady := by
  unfold takeResponse; split_ifs <;> rfl
@[simp] theorem takeResponse_sinkReady (d : Descriptor) (s : State) : (takeResponse d s).sinkReady = s.sinkReady := by
  unfold takeResponse; split_ifs <;> rfl
@[simp] theorem takeResponse_changed (d : Descriptor) (s : State) : (takeResponse d s).changed = s.changed := by
  unfold takeResponse; split_ifs <;> rfl
@[simp] theorem takeResponse_inputs (d : Descriptor) (s : State) : (takeResponse d s).inputs = s.inputs := by
  unfold takeResponse; split_ifs <;> rfl

/-! ## loadSymbol -/

@[simp] theorem loadSymbol_oversample (d : Descriptor) (s : State) : (loadSymbol d s).oversample = s.oversample := by
  unfold loadSymbol; split_ifs <;> rfl
@[simp] theorem loadSymbol_single (d : Descriptor) (s : State) : (loadSymbol d s).single = s.single := by
  unfold loadSymbol; split_ifs <;> rfl
@[simp] theorem loadSymbol_irqEn (d : Descriptor) (s : State) : (loadSymbol d s).irqEn = s.irqEn := by
  unfold loadSymbol; split_ifs <;> rfl
@[simp] theorem loadSymbol_busy (d : Descriptor) (s : State) : (loadSymbol d s).busy = s.busy := by
  unfold loadSymbol; split_ifs <;> rfl
@[simp] theorem loadSymbol_done (d : Descriptor) (s : State) : (loadSymbol d s).done = s.done := by
  unfold loadSymbol; split_ifs <;> rfl
@[simp] theorem loadSymbol_cfgErr (d : Descriptor) (s : State) : (loadSymbol d s).cfgErr = s.cfgErr := by
  unfold loadSymbol; split_ifs <;> rfl
@[simp] theorem loadSymbol_errcode (d : Descriptor) (s : State) : (loadSymbol d s).errcode = s.errcode := by
  unfold loadSymbol; split_ifs <;> rfl
@[simp] theorem loadSymbol_widthA (d : Descriptor) (s : State) : (loadSymbol d s).widthA = s.widthA := by
  unfold loadSymbol; split_ifs <;> rfl
@[simp] theorem loadSymbol_widthB (d : Descriptor) (s : State) : (loadSymbol d s).widthB = s.widthB := by
  unfold loadSymbol; split_ifs <;> rfl
@[simp] theorem loadSymbol_heightA (d : Descriptor) (s : State) : (loadSymbol d s).heightA = s.heightA := by
  unfold loadSymbol; split_ifs <;> rfl
@[simp] theorem loadSymbol_heightB (d : Descriptor) (s : State) : (loadSymbol d s).heightB = s.heightB := by
  unfold loadSymbol; split_ifs <;> rfl
@[simp] theorem loadSymbol_nlines (d : Descriptor) (s : State) : (loadSymbol d s).nlines = s.nlines := by
  unfold loadSymbol; split_ifs <;> rfl
@[simp] theorem loadSymbol_line (d : Descriptor) (s : State) : (loadSymbol d s).line = s.line := by
  unfold loadSymbol; split_ifs <;> rfl
@[simp] theorem loadSymbol_seg (d : Descriptor) (s : State) : (loadSymbol d s).seg = s.seg := by
  unfold loadSymbol; split_ifs <;> rfl
@[simp] theorem loadSymbol_pos (d : Descriptor) (s : State) : (loadSymbol d s).pos = s.pos := by
  unfold loadSymbol; split_ifs <;> rfl
@[simp] theorem loadSymbol_sub (d : Descriptor) (s : State) : (loadSymbol d s).sub = s.sub := by
  unfold loadSymbol; split_ifs <;> rfl
@[simp] theorem loadSymbol_sn (d : Descriptor) (s : State) : (loadSymbol d s).sn = s.sn := by
  unfold loadSymbol; split_ifs <;> rfl
@[simp] theorem loadSymbol_phase (d : Descriptor) (s : State) : (loadSymbol d s).phase = s.phase := by
  unfold loadSymbol; split_ifs <;> rfl
@[simp] theorem loadSymbol_pixPending (d : Descriptor) (s : State) : (loadSymbol d s).pixPending = s.pixPending := by
  unfold loadSymbol; split_ifs <;> rfl
@[simp] theorem loadSymbol_outHold (d : Descriptor) (s : State) : (loadSymbol d s).outHold = s.outHold := by
  unfold loadSymbol; split_ifs <;> rfl
@[simp] theorem loadSymbol_pixels (d : Descriptor) (s : State) : (loadSymbol d s).pixels = s.pixels := by
  unfold loadSymbol; split_ifs <;> rfl
@[simp] theorem loadSymbol_stream (d : Descriptor) (s : State) : (loadSymbol d s).stream = s.stream := by
  unfold loadSymbol; split_ifs <;> rfl
@[simp] theorem loadSymbol_requests (d : Descriptor) (s : State) : (loadSymbol d s).requests = s.requests := by
  unfold loadSymbol; split_ifs <;> rfl
@[simp] theorem loadSymbol_response (d : Descriptor) (s : State) : (loadSymbol d s).response = s.response := by
  unfold loadSymbol; split_ifs <;> rfl
@[simp] theorem loadSymbol_pixelReady (d : Descriptor) (s : State) : (loadSymbol d s).pixelReady = s.pixelReady := by
  unfold loadSymbol; split_ifs <;> rfl
@[simp] theorem loadSymbol_sinkReady (d : Descriptor) (s : State) : (loadSymbol d s).sinkReady = s.sinkReady := by
  unfold loadSymbol; split_ifs <;> rfl
@[simp] theorem loadSymbol_changed (d : Descriptor) (s : State) : (loadSymbol d s).changed = s.changed := by
  unfold loadSymbol; split_ifs <;> rfl
@[simp] theorem loadSymbol_freeNext (d : Descriptor) (s : State) : (loadSymbol d s).freeNext = s.freeNext := by
  unfold loadSymbol; split_ifs <;> rfl
@[simp] theorem loadSymbol_inputs (d : Descriptor) (s : State) : (loadSymbol d s).inputs = s.inputs := by
  unfold loadSymbol; split_ifs <;> rfl

/-! ## commitSample -/

@[simp] theorem commitSample_oversample (d : Descriptor) (byte : Byte) (s : State) : (commitSample d byte s).oversample = s.oversample := by
  simp [commitSample]
@[simp] theorem commitSample_single (d : Descriptor) (byte : Byte) (s : State) : (commitSample d byte s).single = s.single := by
  simp [commitSample]
@[simp] theorem commitSample_irqEn (d : Descriptor) (byte : Byte) (s : State) : (commitSample d byte s).irqEn = s.irqEn := by
  simp [commitSample]
@[simp] theorem commitSample_cfgErr (d : Descriptor) (byte : Byte) (s : State) : (commitSample d byte s).cfgErr = s.cfgErr := by
  simp [commitSample]
@[simp] theorem commitSample_errcode (d : Descriptor) (byte : Byte) (s : State) : (commitSample d byte s).errcode = s.errcode := by
  simp [commitSample]
@[simp] theorem commitSample_widthA (d : Descriptor) (byte : Byte) (s : State) : (commitSample d byte s).widthA = s.widthA := by
  simp [commitSample]
@[simp] theorem commitSample_widthB (d : Descriptor) (byte : Byte) (s : State) : (commitSample d byte s).widthB = s.widthB := by
  simp [commitSample]
@[simp] theorem commitSample_heightA (d : Descriptor) (byte : Byte) (s : State) : (commitSample d byte s).heightA = s.heightA := by
  simp [commitSample]
@[simp] theorem commitSample_heightB (d : Descriptor) (byte : Byte) (s : State) : (commitSample d byte s).heightB = s.heightB := by
  simp [commitSample]
@[simp] theorem commitSample_nlines (d : Descriptor) (byte : Byte) (s : State) : (commitSample d byte s).nlines = s.nlines := by
  simp [commitSample]
@[simp] theorem commitSample_sym (d : Descriptor) (byte : Byte) (s : State) : (commitSample d byte s).sym = s.sym := by
  simp [commitSample]
@[simp] theorem commitSample_pixPending (d : Descriptor) (byte : Byte) (s : State) : (commitSample d byte s).pixPending = s.pixPending := by
  simp [commitSample]
@[simp] theorem commitSample_pixels (d : Descriptor) (byte : Byte) (s : State) : (commitSample d byte s).pixels = s.pixels := by
  simp [commitSample]
@[simp] theorem commitSample_requests (d : Descriptor) (byte : Byte) (s : State) : (commitSample d byte s).requests = s.requests := by
  simp [commitSample]
@[simp] theorem commitSample_response (d : Descriptor) (byte : Byte) (s : State) : (commitSample d byte s).response = s.response := by
  simp [commitSample]
@[simp] theorem commitSample_pixelReady (d : Descriptor) (byte : Byte) (s : State) : (commitSample d byte s).pixelReady = s.pixelReady := by
  simp [commitSample]
@[simp] theorem commitSample_sinkReady (d : Descriptor) (byte : Byte) (s : State) : (commitSample d byte s).sinkReady = s.sinkReady := by
  simp [commitSample]
@[simp] theorem commitSample_changed (d : Descriptor) (byte : Byte) (s : State) : (commitSample d byte s).changed = s.changed := by
  simp [commitSample]
@[simp] theorem commitSample_freeNext (d : Descriptor) (byte : Byte) (s : State) : (commitSample d byte s).freeNext = s.freeNext := by
  simp [commitSample]
@[simp] theorem commitSample_inputs (d : Descriptor) (byte : Byte) (s : State) : (commitSample d byte s).inputs = s.inputs := by
  simp [commitSample]

/-! ## offerSample -/

@[simp] theorem offerSample_oversample (d : Descriptor) (s : State) : (offerSample d s).oversample = s.oversample := by
  unfold offerSample; split
  · split_ifs <;> simp
  · rfl
@[simp] theorem offerSample_single (d : Descriptor) (s : State) : (offerSample d s).single = s.single := by
  unfold offerSample; split
  · split_ifs <;> simp
  · rfl
@[simp] theorem offerSample_irqEn (d : Descriptor) (s : State) : (offerSample d s).irqEn = s.irqEn := by
  unfold offerSample; split
  · split_ifs <;> simp
  · rfl
@[simp] theorem offerSample_cfgErr (d : Descriptor) (s : State) : (offerSample d s).cfgErr = s.cfgErr := by
  unfold offerSample; split
  · split_ifs <;> simp
  · rfl
@[simp] theorem offerSample_errcode (d : Descriptor) (s : State) : (offerSample d s).errcode = s.errcode := by
  unfold offerSample; split
  · split_ifs <;> simp
  · rfl
@[simp] theorem offerSample_widthA (d : Descriptor) (s : State) : (offerSample d s).widthA = s.widthA := by
  unfold offerSample; split
  · split_ifs <;> simp
  · rfl
@[simp] theorem offerSample_widthB (d : Descriptor) (s : State) : (offerSample d s).widthB = s.widthB := by
  unfold offerSample; split
  · split_ifs <;> simp
  · rfl
@[simp] theorem offerSample_heightA (d : Descriptor) (s : State) : (offerSample d s).heightA = s.heightA := by
  unfold offerSample; split
  · split_ifs <;> simp
  · rfl
@[simp] theorem offerSample_heightB (d : Descriptor) (s : State) : (offerSample d s).heightB = s.heightB := by
  unfold offerSample; split
  · split_ifs <;> simp
  · rfl
@[simp] theorem offerSample_nlines (d : Descriptor) (s : State) : (offerSample d s).nlines = s.nlines := by
  unfold offerSample; split
  · split_ifs <;> simp
  · rfl
@[simp] theorem offerSample_sym (d : Descriptor) (s : State) : (offerSample d s).sym = s.sym := by
  unfold offerSample; split
  · split_ifs <;> simp
  · rfl
@[simp] theorem offerSample_pixPending (d : Descriptor) (s : State) : (offerSample d s).pixPending = s.pixPending := by
  unfold offerSample; split
  · split_ifs <;> simp
  · rfl
@[simp] theorem offerSample_pixels (d : Descriptor) (s : State) : (offerSample d s).pixels = s.pixels := by
  unfold offerSample; split
  · split_ifs <;> simp
  · rfl
@[simp] theorem offerSample_requests (d : Descriptor) (s : State) : (offerSample d s).requests = s.requests := by
  unfold offerSample; split
  · split_ifs <;> simp
  · rfl
@[simp] theorem offerSample_response (d : Descriptor) (s : State) : (offerSample d s).response = s.response := by
  unfold offerSample; split
  · split_ifs <;> simp
  · rfl
@[simp] theorem offerSample_pixelReady (d : Descriptor) (s : State) : (offerSample d s).pixelReady = s.pixelReady := by
  unfold offerSample; split
  · split_ifs <;> simp
  · rfl
@[simp] theorem offerSample_sinkReady (d : Descriptor) (s : State) : (offerSample d s).sinkReady = s.sinkReady := by
  unfold offerSample; split
  · split_ifs <;> simp
  · rfl
@[simp] theorem offerSample_changed (d : Descriptor) (s : State) : (offerSample d s).changed = s.changed := by
  unfold offerSample; split
  · split_ifs <;> simp
  · rfl
@[simp] theorem offerSample_freeNext (d : Descriptor) (s : State) : (offerSample d s).freeNext = s.freeNext := by
  unfold offerSample; split
  · split_ifs <;> simp
  · rfl
@[simp] theorem offerSample_inputs (d : Descriptor) (s : State) : (offerSample d s).inputs = s.inputs := by
  unfold offerSample; split
  · split_ifs <;> simp
  · rfl

/-! ## workSample -/

@[simp] theorem workSample_oversample (d : Descriptor) (s : State) : (workSample d s).oversample = s.oversample := by
  unfold workSample; split
  · simp
  · dsimp only; split_ifs <;> simp
@[simp] theorem workSample_single (d : Descriptor) (s : State) : (workSample d s).single = s.single := by
  unfold workSample; split
  · simp
  · dsimp only; split_ifs <;> simp
@[simp] theorem workSample_irqEn (d : Descriptor) (s : State) : (workSample d s).irqEn = s.irqEn := by
  unfold workSample; split
  · simp
  · dsimp only; split_ifs <;> simp
@[simp] theorem workSample_cfgErr (d : Descriptor) (s : State) : (workSample d s).cfgErr = s.cfgErr := by
  unfold workSample; split
  · simp
  · dsimp only; split_ifs <;> simp
@[simp] theorem workSample_errcode (d : Descriptor) (s : State) : (workSample d s).errcode = s.errcode := by
  unfold workSample; split
  · simp
  · dsimp only; split_ifs <;> simp
@[simp] theorem workSample_widthA (d : Descriptor) (s : State) : (workSample d s).widthA = s.widthA := by
  unfold workSample; split
  · simp
  · dsimp only; split_ifs <;> simp
@[simp] theorem workSample_widthB (d : Descriptor) (s : State) : (workSample d s).widthB = s.widthB := by
  unfold workSample; split
  · simp
  · dsimp only; split_ifs <;> simp
@[simp] theorem workSample_heightA (d : Descriptor) (s : State) : (workSample d s).heightA = s.heightA := by
  unfold workSample; split
  · simp
  · dsimp only; split_ifs <;> simp
@[simp] theorem workSample_heightB (d : Descriptor) (s : State) : (workSample d s).heightB = s.heightB := by
  unfold workSample; split
  · simp
  · dsimp only; split_ifs <;> simp
@[simp] theorem workSample_nlines (d : Descriptor) (s : State) : (workSample d s).nlines = s.nlines := by
  unfold workSample; split
  · simp
  · dsimp only; split_ifs <;> simp
@[simp] theorem workSample_pixels (d : Descriptor) (s : State) : (workSample d s).pixels = s.pixels := by
  unfold workSample; split
  · simp
  · dsimp only; split_ifs <;> simp
@[simp] theorem workSample_response (d : Descriptor) (s : State) : (workSample d s).response = s.response := by
  unfold workSample; split
  · simp
  · dsimp only; split_ifs <;> simp
@[simp] theorem workSample_pixelReady (d : Descriptor) (s : State) : (workSample d s).pixelReady = s.pixelReady := by
  unfold workSample; split
  · simp
  · dsimp only; split_ifs <;> simp
@[simp] theorem workSample_sinkReady (d : Descriptor) (s : State) : (workSample d s).sinkReady = s.sinkReady := by
  unfold workSample; split
  · simp
  · dsimp only; split_ifs <;> simp
@[simp] theorem workSample_changed (d : Descriptor) (s : State) : (workSample d s).changed = s.changed := by
  unfold workSample; split
  · simp
  · dsimp only; split_ifs <;> simp
@[simp] theorem workSample_inputs (d : Descriptor) (s : State) : (workSample d s).inputs = s.inputs := by
  unfold workSample; split
  · simp
  · dsimp only; split_ifs <;> simp

end Sys2Proof.Machine
end

