-- ==== Sys2Proof/Laws/Memory.lean ====
section
/-! SUPPORT. The laws of the pixel space: reading after writing, the canonical form kept, and equal memories equal
data. -/

namespace Sys2Proof.Machine

@[simp] theorem memRead_nil (n : Nat) : memRead [] n = unlistedPixel := rfl

@[simp] theorem memRead_cons (a : Nat) (b : Byte) (m : List Host.Cell) (n : Nat) :
    memRead ((a, b) :: m) n = if a = n then b else memRead m n := rfl

theorem memWfFrom_cons {lo a : Nat} {b : Byte} {m : List Host.Cell} :
    memWfFrom lo ((a, b) :: m) = true ↔ lo ≤ a ∧ b ≠ unlistedPixel ∧ memWfFrom (a + 1) m = true := by
  simp [memWfFrom, and_assoc]

theorem memWfFrom_mono {lo lo' : Nat} {m : List Host.Cell} (h : memWfFrom lo m = true) (hle : lo' ≤ lo) :
    memWfFrom lo' m = true := by
  cases m with
  | nil => rfl
  | cons c m =>
    obtain ⟨h₁, h₂, h₃⟩ := memWfFrom_cons.mp h
    exact memWfFrom_cons.mpr ⟨hle.trans h₁, h₂, h₃⟩

/-- Below the least listed address nothing is listed. -/
theorem memRead_below {lo n : Nat} {m : List Host.Cell} (h : memWfFrom lo m = true) (hn : n < lo) :
    memRead m n = unlistedPixel := by
  induction m generalizing lo with
  | nil => rfl
  | cons c m ih =>
    obtain ⟨h₁, _, h₃⟩ := memWfFrom_cons.mp h
    rw [memRead_cons, if_neg (by omega)]
    exact ih h₃ (by omega)

/-- A write keeps the canonical form. -/
theorem memWrite_wfFrom {lo n : Nat} {m : List Host.Cell} (v : Byte) (h : memWfFrom lo m = true) (hn : lo ≤ n) :
    memWfFrom lo (memWrite m n v) = true := by
  induction m generalizing lo with
  | nil =>
    by_cases hv : v = unlistedPixel
    · simp [memWrite, hv, memWfFrom]
    · simp [memWrite, hv, memWfFrom, hn]
  | cons c m ih =>
    obtain ⟨h₁, h₂, h₃⟩ := memWfFrom_cons.mp h
    simp only [memWrite]
    split_ifs with hlt hv heq hv
    · exact h
    · exact memWfFrom_cons.mpr ⟨hn, hv, memWfFrom_cons.mpr ⟨hlt, h₂, h₃⟩⟩
    · exact memWfFrom_mono h₃ (by omega)
    · exact memWfFrom_cons.mpr ⟨h₁, hv, h₃⟩
    · exact memWfFrom_cons.mpr ⟨h₁, h₂, ih h₃ (by omega)⟩

theorem memWrite_wf {m : List Host.Cell} (n : Nat) (v : Byte) (h : memWf m = true) : memWf (memWrite m n v) = true :=
  memWrite_wfFrom v h (Nat.zero_le n)

/-- A read after a write: the written byte at its address, every other byte as before. -/
theorem memRead_memWriteFrom {lo : Nat} {m : List Host.Cell} (n : Nat) (v : Byte) (k : Nat)
    (h : memWfFrom lo m = true) : memRead (memWrite m n v) k = if k = n then v else memRead m k := by
  induction m generalizing lo with
  | nil =>
    by_cases hv : v = unlistedPixel
    · simp [memWrite, hv]
    · simp [memWrite, hv, eq_comm]
  | cons c m ih =>
    obtain ⟨a, b⟩ := c
    obtain ⟨-, -, h₃⟩ := memWfFrom_cons.mp h
    have hnk : n ≤ a → k = n → memRead m n = unlistedPixel := fun hle _ => memRead_below h₃ (by omega)
    simp only [memWrite]
    by_cases hk : k = n
    · subst hk
      simp only [if_true]
      by_cases hlt : k < a
      · by_cases hv : v = unlistedPixel
        · rw [if_pos hlt, if_pos hv, memRead_cons, if_neg (by omega), hv, hnk hlt.le rfl]
        · rw [if_pos hlt, if_neg hv, memRead_cons, if_pos rfl]
      · by_cases heq : k = a
        · by_cases hv : v = unlistedPixel
          · rw [if_neg hlt, if_pos heq, if_pos hv, hv, hnk heq.le rfl]
          · rw [if_neg hlt, if_pos heq, if_neg hv, memRead_cons, if_pos heq.symm]
        · rw [if_neg hlt, if_neg heq, memRead_cons, if_neg (Ne.symm heq), ih h₃, if_pos rfl]
    · simp only [if_neg hk]
      by_cases hlt : n < a
      · by_cases hv : v = unlistedPixel
        · rw [if_pos hlt, if_pos hv]
        · rw [if_pos hlt, if_neg hv, memRead_cons, if_neg (Ne.symm hk)]
      · by_cases heq : n = a
        · have hak : a ≠ k := fun hc => hk (by omega)
          by_cases hv : v = unlistedPixel
          · rw [if_neg hlt, if_pos heq, if_pos hv, memRead_cons, if_neg hak]
          · rw [if_neg hlt, if_pos heq, if_neg hv, memRead_cons, memRead_cons, if_neg hak, if_neg hak]
        · rw [if_neg hlt, if_neg heq, memRead_cons, memRead_cons, ih h₃, if_neg hk]

theorem memRead_memWrite {m : List Host.Cell} (n : Nat) (v : Byte) (k : Nat) (h : memWf m = true) :
    memRead (memWrite m n v) k = if k = n then v else memRead m k :=
  memRead_memWriteFrom n v k h

/-- Two memories in canonical form that read the same are the same list. -/
theorem memWfFrom_ext {lo : Nat} {m m' : List Host.Cell} (h : memWfFrom lo m = true) (h' : memWfFrom lo m' = true)
    (hread : ∀ n, memRead m n = memRead m' n) : m = m' := by
  induction m generalizing lo m' with
  | nil =>
    cases m' with
    | nil => rfl
    | cons c m' =>
      obtain ⟨-, h₂, -⟩ := memWfFrom_cons.mp h'
      exact absurd (by have := hread c.1; rw [memRead_nil, memRead_cons, if_pos rfl] at this; exact this.symm) h₂
  | cons c m ih =>
    obtain ⟨a, b⟩ := c
    obtain ⟨-, hb, hm⟩ := memWfFrom_cons.mp h
    cases m' with
    | nil => exact absurd (by simpa using hread a) hb
    | cons c' m' =>
      obtain ⟨a', b'⟩ := c'
      obtain ⟨-, hb', hm'⟩ := memWfFrom_cons.mp h'
      have haa : a = a' := by
        rcases Nat.lt_trichotomy a a' with hlt | heq | hgt
        · have := hread a
          rw [memRead_cons, if_pos rfl, memRead_cons, if_neg (by omega), memRead_below hm' (by omega)] at this
          exact absurd this hb
        · exact heq
        · have := hread a'
          rw [memRead_cons, if_neg (by omega), memRead_cons, if_pos rfl, memRead_below hm (by omega)] at this
          exact absurd this.symm hb'
      subst haa
      have hbb : b = b' := by simpa using hread a
      subst hbb
      congr 1
      refine ih hm hm' fun n => ?_
      by_cases hn : a = n
      · rw [memRead_below hm (by omega), memRead_below hm' (by omega)]
      · simpa [hn] using hread n

theorem memWf_ext {m m' : List Host.Cell} (h : memWf m = true) (h' : memWf m' = true)
    (hread : ∀ n, memRead m n = memRead m' n) : m = m' :=
  memWfFrom_ext h h' hread

/-- The reset state's images are in canonical form. -/
theorem reset_pixels_wf : memWf State.reset.pixels = true := rfl

/-- A pixel's change keeps the canonical form. -/
theorem changePixel_wf (p : PixRequest) (byte : Byte) {s : State} (h : memWf s.pixels = true) :
    memWf (changePixel p byte s).pixels = true := by
  unfold changePixel
  by_cases h₁ : imageWidth ≤ p.x.toNat
  · simpa [h₁] using h
  · by_cases h₂ : pixelAt s p = byte
    · simpa [h₁, h₂] using h
    · simpa [h₁, h₂] using memWrite_wf _ _ h

/-- Distinct pixels have distinct addresses. -/
theorem pixelAddr_injective {p q : PixRequest} (h : pixelAddr p = pixelAddr q) : p = q := by
  obtain ⟨pc, px, py⟩ := p
  obtain ⟨qc, qx, qy⟩ := q
  have hx := px.isLt
  have hx' := qx.isLt
  have hy := py.isLt
  have hy' := qy.isLt
  cases pc <;> cases qc <;> simp only [pixelAddr, channelNat] at h <;> try omega
  all_goals
    have h₁ : px = qx := BitVec.eq_of_toNat_eq (by omega)
    have h₂ : py = qy := BitVec.eq_of_toNat_eq (by omega)
    rw [h₁, h₂]

end Sys2Proof.Machine
end

