-- ==== Sys2Proof/Laws/Modulator.lean ====
section
/-! SUPPORT. The model's sine against the real sine: its error is at most 10^-18 (log 12). -/

namespace Sys2Proof.Machine

/-! ## The nested series in the reals -/

/-- The series of `sineSeries` in exact real arithmetic. -/
noncomputable def seriesR (y : ℝ) : Nat → Nat → ℝ
  | 0, _ => 1
  | t + 1, n => 1 - y * seriesR y t (n + 1) / (2 * n * (2 * n + 1))

/-- The nested series lies in [0, 1] for arguments up to 3. -/
theorem seriesR_mem {y : ℝ} (h0 : 0 ≤ y) (h6 : y ≤ 3) (t n : Nat) (hn : 1 ≤ n) :
    0 ≤ seriesR y t n ∧ seriesR y t n ≤ 1 := by
  induction t generalizing n with
  | zero => simp [seriesR]
  | succ t ih =>
    obtain ⟨a, b⟩ := ih (n + 1) (by omega)
    have hn' : (1 : ℝ) ≤ n := by exact_mod_cast hn
    have hc : (6 : ℝ) ≤ 2 * n * (2 * n + 1) := by nlinarith
    have h1 : y * seriesR y t (n + 1) ≤ 3 := by nlinarith
    have h2 : 0 ≤ y * seriesR y t (n + 1) := mul_nonneg h0 a
    simp only [seriesR]
    constructor
    · rw [sub_nonneg, div_le_one (by linarith)]; linarith
    · have : 0 ≤ y * seriesR y t (n + 1) / (2 * n * (2 * n + 1)) := div_nonneg h2 (by linarith)
      linarith

/-- The nested series is the sine part of the exponential series. -/
theorem sine_sum (x : ℝ) :
    x * seriesR (x * x) 14 1 = (∑ m ∈ Finset.range 30, ((x : ℂ) * Complex.I) ^ m / (m.factorial : ℂ)).im := by
  have : (∑ m ∈ Finset.range 30, ((x : ℂ) * Complex.I) ^ m / (m.factorial : ℂ)).im =
      ∑ m ∈ Finset.range 30, x ^ m / m.factorial * (Complex.I ^ (m % 4)).im := by
    rw [Complex.im_sum]
    refine Finset.sum_congr rfl fun m _ => ?_
    rw [mul_pow, Complex.I_pow_eq_pow_mod]
    have : (x : ℂ) ^ m * Complex.I ^ (m % 4) / (m.factorial : ℂ) =
        ((x ^ m / m.factorial : ℝ) : ℂ) * Complex.I ^ (m % 4) := by push_cast; ring
    rw [this, Complex.im_ofReal_mul]
  rw [this]
  have h3 : (Complex.I ^ 3).im = -1 := by rw [show (3:ℕ) = 2 + 1 from rfl, pow_succ, Complex.I_sq]; simp
  simp [Finset.sum_range_succ, seriesR, Nat.factorial]
  ring

/-- Fourteen terms give the sine in the first quarter. -/
theorem sine_taylor {x : ℝ} (h0 : 0 ≤ x) (h1 : x ≤ 1.6) : |Real.sin x - x * seriesR (x * x) 14 1| ≤ 1e-20 := by
  have hb := Complex.exp_bound' (x := x * Complex.I) (n := 30) (by simp [abs_of_nonneg h0]; linarith)
  have h2 := (Complex.abs_im_le_norm _).trans hb
  rw [Complex.sub_im, Complex.exp_ofReal_mul_I_im, ← sine_sum] at h2
  refine h2.trans ?_
  simp only [norm_mul, Complex.norm_real, Complex.norm_I, mul_one, Real.norm_eq_abs, abs_of_nonneg h0]
  have : x ^ 30 ≤ 1.6 ^ 30 := pow_le_pow_left₀ h0 h1 30
  calc x ^ 30 / (Nat.factorial 30 : ℝ) * 2 ≤ 1.6 ^ 30 / (Nat.factorial 30 : ℝ) * 2 := by gcongr
    _ ≤ 1e-20 := by norm_num [Nat.factorial]

/-! ## The integer series -/

/-- Integer division loses less than one. -/
theorem natdiv_real (a b : Nat) (hb : 0 < b) :
    ((a / b : Nat) : ℝ) ≤ a / b ∧ (a : ℝ) / b - 1 ≤ ((a / b : Nat) : ℝ) := by
  refine ⟨Nat.cast_div_le, ?_⟩
  have : (a : ℝ) < b * ((a / b : Nat) + 1) := by exact_mod_cast Nat.lt_mul_div_succ a hb
  have hb' : (0 : ℝ) < b := by exact_mod_cast hb
  rw [sub_le_iff_le_add, div_le_iff₀ hb']; nlinarith

theorem sineOne_real : ((sineOne : Nat) : ℝ) = 10 ^ 30 := by norm_num [sineOne]

/-- The integer series stays within three units of the real one. -/
theorem series_close {x X : Nat} (hx : (x : ℝ) ≤ 1.6 * 10 ^ 30) (hX : X = x * x / sineOne) (t n : Nat)
    (hn : 1 ≤ n) :
    sineSeries X t n ≤ sineOne ∧
    |(sineSeries X t n : ℝ) - 10 ^ 30 * seriesR ((x / 10 ^ 30) * (x / 10 ^ 30)) t n| ≤ 3 := by
  set y : ℝ := (x / 10 ^ 30) * (x / 10 ^ 30) with hy
  have hx0 : (0 : ℝ) ≤ x := Nat.cast_nonneg x
  have hy0 : 0 ≤ y := mul_self_nonneg _
  have hxs : (x : ℝ) / 10 ^ 30 ≤ 1.6 := by rw [div_le_iff₀ (by positivity)]; exact hx
  have hy3 : y ≤ 3 := by rw [hy]; nlinarith [div_nonneg hx0 (by positivity : (0:ℝ) ≤ 10 ^ 30)]
  have hXr := natdiv_real (x * x) sineOne (by decide)
  rw [← hX] at hXr
  have hyX : ((x * x : Nat) : ℝ) / (sineOne : Nat) = 10 ^ 30 * y := by rw [hy]; unfold sineOne; push_cast; ring
  rw [hyX] at hXr
  induction t generalizing n with
  | zero =>
    refine ⟨le_rfl, ?_⟩
    show |((sineOne : Nat) : ℝ) - 10 ^ 30 * 1| ≤ 3
    rw [sineOne_real]; norm_num
  | succ t ih =>
    obtain ⟨ha, he⟩ := ih (n + 1) (by omega)
    set a := sineSeries X t (n + 1) with hadef
    have hS := seriesR_mem hy0 hy3 t (n + 1) (by omega)
    set S := seriesR y t (n + 1) with hSdef
    have hn' : (1 : ℝ) ≤ n := by exact_mod_cast hn
    have hc : (6 : ℝ) ≤ 2 * n * (2 * n + 1) := by nlinarith
    set c : ℝ := 2 * n * (2 * n + 1) with hcdef
    have har : (a : ℝ) ≤ 10 ^ 30 := by have : (a : ℝ) ≤ (sineOne : Nat) := by exact_mod_cast ha
                                       rwa [sineOne_real] at this
    have ha0 : (0 : ℝ) ≤ a := Nat.cast_nonneg a
    have hq := natdiv_real (X * a) (sineOne * (2 * n * (2 * n + 1))) (by unfold sineOne; positivity)
    set q := X * a / (sineOne * (2 * n * (2 * n + 1))) with hqdef
    have hqe : ((X * a : Nat) : ℝ) / ((sineOne * (2 * n * (2 * n + 1)) : Nat) : ℝ) = X * a / (10 ^ 30 * c) := by
      rw [hcdef]; unfold sineOne; push_cast; ring
    rw [hqe] at hq
    have hX0 : (0 : ℝ) ≤ X := Nat.cast_nonneg X
    have hd : |(X : ℝ) * a / (10 ^ 30 * c) - 10 ^ 30 * (y * S / c)| ≤ 2 := by
      have e : (X : ℝ) * a / (10 ^ 30 * c) - 10 ^ 30 * (y * S / c) =
          ((X - 10 ^ 30 * y) * (a / 10 ^ 30) + y * (a - 10 ^ 30 * S)) / c := by
        field_simp; ring
      rw [e, abs_div, abs_of_pos (by linarith : 0 < c), div_le_iff₀ (by linarith)]
      have h1 : |(X - 10 ^ 30 * y) * ((a : ℝ) / 10 ^ 30)| ≤ 1 := by
        rw [abs_mul]
        have : |(X : ℝ) - 10 ^ 30 * y| ≤ 1 := abs_le.mpr ⟨by linarith [hXr.2], by linarith [hXr.1]⟩
        have h' : |(a : ℝ) / 10 ^ 30| ≤ 1 := by
          rw [abs_of_nonneg (by positivity), div_le_one (by positivity)]; exact har
        calc _ ≤ 1 * 1 := mul_le_mul this h' (abs_nonneg _) zero_le_one
          _ = 1 := one_mul 1
      have h2 : |y * (a - 10 ^ 30 * S)| ≤ 9 := by
        rw [abs_mul, abs_of_nonneg hy0]
        calc _ ≤ 3 * 3 := mul_le_mul hy3 he (abs_nonneg _) (by norm_num)
          _ = 9 := by norm_num
      calc _ ≤ |(X - 10 ^ 30 * y) * ((a : ℝ) / 10 ^ 30)| + |y * (a - 10 ^ 30 * S)| := abs_add_le _ _
        _ ≤ 1 + 9 := add_le_add h1 h2
        _ ≤ 2 * c := by linarith
    have hql : q ≤ sineOne := by
      have : (q : ℝ) ≤ (sineOne : Nat) := by
        have : (X : ℝ) * a / (10 ^ 30 * c) ≤ 10 ^ 30 := by
          rw [div_le_iff₀ (by positivity)]
          have : (X : ℝ) ≤ 10 ^ 30 * 3 := by nlinarith [hXr.1]
          have : (X : ℝ) * a ≤ (10 ^ 30 * 3) * 10 ^ 30 := mul_le_mul this har ha0 (by positivity)
          nlinarith
        rw [sineOne_real]; exact hq.1.trans this
      exact_mod_cast this
    refine ⟨Nat.sub_le _ _, ?_⟩
    have hcast : ((sineSeries X (t + 1) n : Nat) : ℝ) = 10 ^ 30 - q := by
      show ((sineOne - q : Nat) : ℝ) = _
      rw [Nat.cast_sub hql, sineOne_real]
    rw [hcast]
    have hser : seriesR y (t + 1) n = 1 - y * S / c := rfl
    rw [hser]
    have := abs_le.mp hd
    rw [abs_le]
    constructor <;> linarith [hq.1, hq.2]

/-! ## The model's sine -/

/-- The model's sine in the first quarter. -/
theorem sineQuarter_close {m j : Nat} (hm : 0 < m) (hj : 4 * j ≤ m) :
    |(sineQuarter m j : ℝ) / 10 ^ 30 - Real.sin (2 * Real.pi * j / m)| ≤ 1e-18 := by
  have hm' : (0 : ℝ) < m := by exact_mod_cast hm
  unfold sineQuarter
  split_ifs with h4 h12
  · have hmj : (m : ℝ) = 4 * j := by rw [← h4]; push_cast; ring
    have hj0 : (j : ℝ) ≠ 0 := by rintro h; rw [h] at hmj; linarith
    have : 2 * Real.pi * j / m = Real.pi / 2 := by rw [hmj]; field_simp; norm_num
    rw [this, Real.sin_pi_div_two, sineOne_real]; norm_num
  · have hmj : (m : ℝ) = 12 * j := by rw [← h12]; push_cast; ring
    have hj0 : (j : ℝ) ≠ 0 := by rintro h; rw [h] at hmj; linarith
    have : 2 * Real.pi * j / m = Real.pi / 6 := by rw [hmj]; field_simp; norm_num
    rw [this, Real.sin_pi_div_six]
    have : ((sineOne / 2 : Nat) : ℝ) = 5 * 10 ^ 29 := by norm_num [sineOne]
    rw [this]; norm_num
  · set x := 2 * sinePi * j / m with hx
    have hxr := natdiv_real (2 * sinePi * j) m hm
    rw [← hx] at hxr
    have hpi1 := Real.pi_gt_d20
    have hpi2 := Real.pi_lt_d20
    have hjm : (j : ℝ) / m ≤ 1 / 4 := by
      rw [div_le_div_iff₀ hm' (by norm_num)]; exact_mod_cast (by omega : j * 4 ≤ 1 * m)
    have hjm0 : 0 ≤ (j : ℝ) / m := by positivity
    have hP : ((2 * sinePi * j : Nat) : ℝ) / m = 2 * sinePi * (j / m) := by push_cast; ring
    rw [hP] at hxr
    have hsp : (sinePi : ℝ) = 3141592653589793238462643383279 := by norm_num [sinePi]
    rw [hsp] at hxr
    have hang : 2 * Real.pi * j / m = 2 * Real.pi * (j / m) := by ring
    rw [hang]
    set r := (j : ℝ) / m with hr
    have hx16 : (x : ℝ) ≤ 1.6 * 10 ^ 30 := by nlinarith [hxr.1]
    have hsc := (series_close hx16 rfl 14 1 le_rfl).2
    have hmem := seriesR_mem (y := (x / 10 ^ 30) * (x / 10 ^ 30)) (mul_self_nonneg _) (by
      have : (x : ℝ) / 10 ^ 30 ≤ 1.6 := by rw [div_le_iff₀ (by positivity)]; exact hx16
      have : 0 ≤ (x : ℝ) / 10 ^ 30 := by positivity
      nlinarith) 14 1 le_rfl
    set u := (x : ℝ) / 10 ^ 30 with hu
    have hu0 : 0 ≤ u := by positivity
    have hu16 : u ≤ 1.6 := by rw [hu, div_le_iff₀ (by positivity)]; exact hx16
    have hT := sine_taylor hu0 hu16
    set a := sineSeries (x * x / sineOne) 14 1 with ha
    have hq := natdiv_real (x * a) sineOne (by decide)
    set q := x * a / sineOne with hq'
    have hqe : ((x * a : Nat) : ℝ) / (sineOne : Nat) = u * a := by rw [hu]; unfold sineOne; push_cast; ring
    rw [hqe] at hq
    have hang2 : |u - 2 * Real.pi * r| ≤ 1e-19 := by
      have h1 : (x : ℝ) = u * 10 ^ 30 := by rw [hu]; field_simp
      rw [h1] at hxr
      rw [abs_le]; constructor <;> nlinarith [hxr.1, hxr.2]
    have hlip : |Real.sin u - Real.sin (2 * Real.pi * r)| ≤ 1e-19 := (Real.abs_sin_sub_sin_le _ _).trans hang2
    have hqd : |(q : ℝ) / 10 ^ 30 - u * seriesR (u * u) 14 1| ≤ 1e-28 := by
      have h := abs_le.mp hsc
      rw [abs_le]
      have e : (q : ℝ) = (q / 10 ^ 30 : ℝ) * 10 ^ 30 := by field_simp
      constructor <;> nlinarith [hq.1, hq.2, h.1, h.2]
    have := abs_le.mp hT; have := abs_le.mp hlip; have := abs_le.mp hqd
    rw [abs_le]; constructor <;> linarith

/-- The model's sine in the first half. -/
theorem sineHalf_close {h j : Nat} (hh : 0 < h) (hj : j ≤ h) :
    |(sineHalf (2 * h) j : ℝ) / 10 ^ 30 - Real.sin (2 * Real.pi * j / (2 * h : Nat))| ≤ 1e-18 := by
  unfold sineHalf
  split_ifs with c
  · exact sineQuarter_close (by omega) c
  · have e : 2 * h / 2 - j = h - j := by omega
    have := sineQuarter_close (m := 2 * h) (j := h - j) (by omega) (by omega)
    rw [e]
    have hr : (0 : ℝ) < h := by exact_mod_cast hh
    have a : 2 * Real.pi * ((h - j : Nat) : ℝ) / (2 * h : Nat) = Real.pi - 2 * Real.pi * j / (2 * h : Nat) := by
      rw [Nat.cast_sub hj]; push_cast; field_simp
    rwa [a, Real.sin_pi_sub] at this

/-- c(k) of R102 for an even modulus: the model's sine is the real sine to 10^-18. -/
theorem carrierSine_close {h k : Nat} (hh : 0 < h) (hk : k ≤ 2 * h) :
    |(carrierSine (2 * h) k : ℝ) / 10 ^ 30 - Real.sin (2 * Real.pi * k / (2 * h : Nat))| ≤ 1e-18 := by
  unfold carrierSine
  split_ifs with c
  · rw [Int.cast_natCast]; exact sineHalf_close hh (by omega)
  · have := sineHalf_close (h := h) (j := 2 * h - k) hh (by omega)
    have hr : (0 : ℝ) < h := by exact_mod_cast hh
    have a : 2 * Real.pi * ((2 * h - k : Nat) : ℝ) / (2 * h : Nat) =
        2 * Real.pi - 2 * Real.pi * k / (2 * h : Nat) := by
      rw [Nat.cast_sub hk]; push_cast; field_simp
    rw [a, Real.sin_two_pi_sub] at this
    rw [← abs_neg]
    push_cast
    rw [show -(-(sineHalf (2 * h) (2 * h - k) : ℝ) / 10 ^ 30 - Real.sin (2 * Real.pi * k / (2 * h))) =
      (sineHalf (2 * h) (2 * h - k) : ℝ) / 10 ^ 30 - -Real.sin (2 * Real.pi * k / (2 * h)) by ring]
    push_cast at this
    exact this

end Sys2Proof.Machine
end

