-- ==== Sys2Proof/Laws/Ops.lean ====
section
/-! SUPPORT. One lemma per shared operation that says everything it can do. -/

namespace Sys2Proof.Machine

/-! ## Host bus and START -/

theorem writeIdle_busy {s : State} (f : State → State) (h : s.busy = true) : writeIdle f s = acknowledge s := by
  simp [writeIdle, h]

theorem writeIdle_idle {s : State} (f : State → State) (h : s.busy = false) : writeIdle f s = acknowledge (f s) := by
  simp [writeIdle, h]

theorem checkConfig_none_iff (s : State) :
    checkConfig s = none ↔ s.widthA = requiredWidth ∧ (s.single = true ∨ s.widthB = requiredWidth) := by
  unfold checkConfig
  by_cases ha : s.widthA = requiredWidth <;> cases hs : s.single <;> simp [ha]

theorem checkConfig_some_iff (s : State) (code : BitVec 4) :
    checkConfig s = some code ↔
      (s.widthA ≠ requiredWidth ∧ code = errWidthA) ∨
      (s.widthA = requiredWidth ∧ s.single = false ∧ s.widthB ≠ requiredWidth ∧ code = errWidthB) := by
  unfold checkConfig
  by_cases ha : s.widthA = requiredWidth <;> cases hs : s.single <;> by_cases hb : s.widthB = requiredWidth <;>
    simp [ha, hb, eq_comm]

/-- START records the error of its check, or begins a run. -/
theorem startRun_cases (s : State) :
    (∃ code, checkConfig (clearOutcome s) = some code ∧ startRun s = raiseConfigError code (clearOutcome s)) ∨
    (checkConfig (clearOutcome s) = none ∧ startRun s = beginRun (clearOutcome s)) := by
  unfold startRun
  cases h : checkConfig (clearOutcome s) with
  | some code => exact .inl ⟨code, rfl, by simp [h]⟩
  | none => exact .inr ⟨rfl, by simp [h]⟩

/-- A CTRL write sets IRQ_EN; while idle it sets SINGLE too, and START acts on the result. -/
theorem writeCtrl_cases (w : Word) (s : State) :
    (s.busy = true ∧ writeCtrl w s = acknowledge { s with irqEn := w.getLsbD 2 }) ∨
    (s.busy = false ∧ w.getLsbD 0 = false ∧
      writeCtrl w s = { acknowledge { s with irqEn := w.getLsbD 2 } with single := w.getLsbD 1 }) ∨
    (s.busy = false ∧ w.getLsbD 0 = true ∧
      writeCtrl w s = startRun { acknowledge { s with irqEn := w.getLsbD 2 } with single := w.getLsbD 1 }) := by
  unfold writeCtrl
  cases s.busy <;> cases w.getLsbD 0 <;> simp

/-! ## The sequencer advance -/

/-- The five cases of the sequencer advance. -/
theorem advance_cases (d : Descriptor) (s : State) :
    (s.sub.toNat + 1 < s.oversample.toNat ∧ advance d s = { s with sub := s.sub + 1#5 }) ∨
    (s.oversample.toNat ≤ s.sub.toNat + 1 ∧ s.pos.toNat + 1 < d.len.toNat ∧
      advance d s = { s with sub := 0#5, pos := s.pos + 1#10 }) ∨
    (s.oversample.toNat ≤ s.sub.toNat + 1 ∧ d.len.toNat ≤ s.pos.toNat + 1 ∧ s.seg.toNat < 7 ∧
      advance d s = { s with sub := 0#5, pos := 0#10, seg := s.seg + 1#3 }) ∨
    (s.oversample.toNat ≤ s.sub.toNat + 1 ∧ d.len.toNat ≤ s.pos.toNat + 1 ∧ s.seg = 7#3 ∧ s.line + 1#16 ≠ s.nlines ∧
      advance d s = { s with sub := 0#5, pos := 0#10, seg := 0#3, line := s.line + 1#16 }) ∨
    (s.oversample.toNat ≤ s.sub.toNat + 1 ∧ d.len.toNat ≤ s.pos.toNat + 1 ∧ s.seg = 7#3 ∧ s.line + 1#16 = s.nlines ∧
      advance d s =
        { s with
          sub := 0#5, pos := 0#10, seg := 0#3, line := s.line + 1#16, busy := false, done := true }) := by
  have h7 : ¬ s.seg.toNat < 7 → s.seg = 7#3 := fun h => BitVec.eq_of_toNat_eq (by
    have := s.seg.isLt
    simp
    omega)
  unfold advance
  by_cases h₁ : s.sub.toNat + 1 < s.oversample.toNat
  · exact .inl ⟨h₁, by rw [if_pos h₁]⟩
  refine .inr ?_
  by_cases h₂ : s.pos.toNat + 1 < d.len.toNat
  · exact .inl ⟨by omega, h₂, by rw [if_neg h₁, if_pos h₂]⟩
  refine .inr ?_
  by_cases h₃ : s.seg.toNat < 7
  · exact .inl ⟨by omega, by omega, h₃, by rw [if_neg h₁, if_neg h₂, if_pos h₃]⟩
  refine .inr ?_
  by_cases h₄ : s.line + 1#16 = s.nlines
  · exact .inr ⟨by omega, by omega, h7 h₃, h₄, by rw [if_neg h₁, if_neg h₂, if_neg h₃, if_pos h₄]; rfl⟩
  · exact .inl ⟨by omega, by omega, h7 h₃, h₄, by rw [if_neg h₁, if_neg h₂, if_neg h₃, if_neg h₄]⟩

/-! ## Stages of a SampleStep -/

theorem offerSample_none {d : Descriptor} {s : State} (h : s.outHold = none) : offerSample d s = s := by
  simp [offerSample, h]

theorem offerSample_some {d : Descriptor} {s : State} {byte : Byte} (h : s.outHold = some byte) :
    offerSample d s = if s.sinkReady then commitSample d byte s else s := by
  simp [offerSample, h]

/-- What a SampleStep does in one slot: it offers the held byte, waits for the pixel source, or loads the symbol and
offers its byte. -/
theorem workSample_cases (d : Descriptor) (s : State) :
    (∃ byte, s.outHold = some byte ∧ workSample d s = if s.sinkReady then commitSample d byte s else s) ∨
    (s.outHold = none ∧ needsPixel d s = true ∧ s.pixelReady = false ∧ workSample d s = issueRequest d s) ∨
    (s.outHold = none ∧ needsPixel d s = true ∧ s.pixelReady = true ∧
      workSample d s = offerSample d (holdSample (takeResponse d (issueRequest d s)))) ∨
    (s.outHold = none ∧ needsPixel d s = false ∧ workSample d s = offerSample d (holdSample (loadSymbol d s))) := by
  unfold workSample
  cases ho : s.outHold with
  | some byte => exact .inl ⟨byte, rfl, by simp only [offerSample, ho]⟩
  | none =>
    refine .inr ?_
    cases hn : needsPixel d s with
    | false => exact .inr (.inr ⟨rfl, rfl, by simp⟩)
    | true =>
      cases hp : s.pixelReady with
      | false => exact .inl ⟨rfl, rfl, rfl, by simp [hp]⟩
      | true => exact .inr (.inl ⟨rfl, rfl, rfl, by simp [hp]⟩)

/-- A SampleStep that answers a next state was not enabled, or did one slot's work at a reachable position. -/
theorem sampleStep_next {d : Descriptor} {s t : State} (h : sampleStep d s = .next t) :
    (s.busy = false ∧ t = s) ∨
    (s.busy = true ∧ phaseReachable s.oversample s.phase = true ∧ s.pos.toNat < d.len.toNat ∧ t = workSample d s) := by
  unfold sampleStep at h
  split_ifs at h with h₁ h₂ h₃
  · exact .inl ⟨h₁, by cases h; rfl⟩
  · exact .inr ⟨by simpa using h₁, by simpa using h₂, by omega, by cases h; rfl⟩

/-- An enabled SampleStep does one slot's work. -/
theorem sampleStep_enabled {d : Descriptor} {s : State} (hb : s.busy = true)
    (hp : phaseReachable s.oversample s.phase = true) (hl : s.pos.toNat < d.len.toNat) :
    sampleStep d s = .next (workSample d s) := by
  simp [sampleStep, hb, hp, Nat.not_le.mpr hl]

/-- A ready slot that needs no pixel completes with the fixed symbol. -/
theorem sampleStep_fixed {d : Descriptor} {s : State} (hb : s.busy = true)
    (hp : phaseReachable s.oversample s.phase = true) (hl : s.pos.toNat < d.len.toNat) (ho : s.outHold = none)
    (hr : s.sinkReady = true) (hs : s.sub = 0#5) (hn : needsPixel d s = false) :
    sampleStep d s =
      .next (commitSample d (modulatorByte s.oversample (fixedSymbol d s) s.phase) { s with sym := fixedSymbol d s }) := by
  rw [sampleStep_enabled hb hp hl]
  simp [workSample, ho, hn, hs, loadSymbol, holdSample, offerSample, hr, commitSample]

/-- A ready slot whose pixel is answered completes with the pixel, or with a free value if the pixel changed. -/
theorem sampleStep_pixel {d : Descriptor} {s : State} (hb : s.busy = true)
    (hp : phaseReachable s.oversample s.phase = true) (hl : s.pos.toNat < d.len.toNat) (ho : s.outHold = none)
    (hr : s.sinkReady = true) (hq : s.pixelReady = true) (hn : needsPixel d s = true) :
    sampleStep d s =
      .next (let t := takeResponse d (issueRequest d s)
             commitSample d (modulatorByte s.oversample t.sym s.phase) t) := by
  rw [sampleStep_enabled hb hp hl]
  simp [workSample, ho, hn, hq, holdSample, offerSample, hr, commitSample]

/-! ## Host requests -/

/-- What holds of both branches holds of the choice. -/
theorem ite_intro {α : Type} {P : α → Prop} {c : Prop} [Decidable c] {a b : α} (h₁ : c → P a) (h₂ : P b) :
    P (if c then a else b) := by
  split
  · exact h₁ ‹_›
  · exact h₂

/-- Every read answers a word. -/
theorem exec_decodeRead (addr : BitVec 8) (s : State) : ∃ v, exec (decodeRead addr) s = .next (respond v s) := by
  unfold decodeRead
  iterate 13 refine ite_intro (P := fun i => ∃ v, exec i s = .next (respond v s)) (fun _ => ⟨_, rfl⟩) ?_
  exact ⟨_, rfl⟩

/-- The update of a configuration register by a word. -/
def isConfigUpdate (w : Word) (f : State → State) : Prop :=
  f = (fun t => { t with widthA := lowHalf w }) ∨ f = (fun t => { t with widthB := lowHalf w }) ∨
  f = (fun t => { t with heightA := lowHalf w }) ∨ f = (fun t => { t with heightB := lowHalf w })

/-- What the meaning of a write request can be: WR_CTRL, a configuration write, or no effect. -/
def writesLike (addr : BitVec 8) (w : Word) (s : State) (i : Instr) : Prop :=
  (addr = 0x00#8 ∧ exec i s = .next (writeCtrl w s)) ∨
  (∃ f, isConfigUpdate w f ∧ exec i s = .next (writeIdle f s)) ∨
  exec i s = .next (acknowledge s)

theorem exec_decodeWrite (addr : BitVec 8) (w : Word) (s : State) : writesLike addr w s (decodeWrite addr w) := by
  unfold decodeWrite
  refine ite_intro (P := writesLike addr w s) (fun h => .inl ⟨h, rfl⟩) ?_
  refine ite_intro (P := writesLike addr w s) (fun _ => .inr (.inr rfl)) ?_
  refine ite_intro (P := writesLike addr w s) (fun _ => .inr (.inl ⟨_, .inl rfl, rfl⟩)) ?_
  refine ite_intro (P := writesLike addr w s) (fun _ => .inr (.inl ⟨_, .inr (.inl rfl), rfl⟩)) ?_
  refine ite_intro (P := writesLike addr w s) (fun _ => .inr (.inl ⟨_, .inr (.inr (.inl rfl)), rfl⟩)) ?_
  refine ite_intro (P := writesLike addr w s) (fun _ => .inr (.inl ⟨_, .inr (.inr (.inr rfl)), rfl⟩)) ?_
  iterate 7 refine ite_intro (P := writesLike addr w s) (fun _ => .inr (.inr rfl)) ?_
  exact .inr (.inr rfl)

/-- Everything a host request can do. -/
theorem exec_decodeRequest (r : HbRequest) (s : State) :
    (r.we = false ∧ ∃ v, exec (decodeRequest r) s = .next (respond v s)) ∨
    (r.we = true ∧ writesLike r.addr r.wdata s (decodeRequest r)) := by
  unfold decodeRequest
  cases r.we with
  | false => exact .inl ⟨rfl, exec_decodeRead _ _⟩
  | true => exact .inr ⟨rfl, exec_decodeWrite _ _ _⟩

/-! ## The other events -/

/-- A pixel change writes the images and the marks only. -/
theorem changePixel_eq (p : PixRequest) (byte : Byte) (s : State) :
    changePixel p byte s =
      { s with pixels := (changePixel p byte s).pixels, changed := (changePixel p byte s).changed } := by
  unfold changePixel
  split_ifs <;> rfl

/-! ## The step -/

/-- The turn of a state without events is the SampleStep a run enables. -/
theorem step_no_event {s : State} (h : s.inputs = []) :
    step s = if s.busy then sampleStep (segDescriptor s.seg) s else .next s := by
  unfold step nextTurn sampleTurn
  rw [h]
  cases hb : s.busy <;> simp [runPacket_segDesc]

/-- A host request runs the operation it decodes to. -/
theorem step_host {s : State} {r : HbRequest} {rest : List Input} (h : s.inputs = .event (.host r) :: rest) :
    step s = exec (decodeRequest r) { s with inputs := rest } := by
  unfold step nextTurn
  rw [h]
  rfl

/-- A slot is the SampleStep a run enables. -/
theorem step_sample {s : State} {rest : List Input} (h : s.inputs = .event .sample :: rest) :
    step s =
      if s.busy then sampleStep (segDescriptor s.seg) { s with inputs := rest }
      else .next { s with inputs := rest } := by
  unfold step nextTurn
  rw [h]
  unfold eventTurn sampleTurn
  cases hb : s.busy <;> simp [runPacket_segDesc]

/-- The turns that run no instruction. -/
theorem step_leave {s t : State} (h : nextTurn s = .leave t) : step s = .next t := by
  simp [step, h]

/-- A step takes a Reset, and leaves an event of the same time for the next step. -/
theorem step_reset {s : State} {same : Option Event} {rest : List Input} (h : s.inputs = .reset same :: rest) :
    step s = .next (resetBlock { s with inputs := (same.map Input.event).toList ++ rest }) := by
  unfold step nextTurn
  rw [h]
  cases same <;> rfl

/-- Everything a step can be, by the first input. -/
theorem step_cases (s : State) :
    (s.inputs = [] ∧ step s = if s.busy then sampleStep (segDescriptor s.seg) s else .next s) ∨
    ∃ rest,
      (∃ r, s.inputs = .event (.host r) :: rest ∧ step s = exec (decodeRequest r) { s with inputs := rest }) ∨
      (s.inputs = .event .sample :: rest ∧
        step s =
          if s.busy then sampleStep (segDescriptor s.seg) { s with inputs := rest }
          else .next { s with inputs := rest }) ∨
      (∃ ready, s.inputs = .event (.pixelSource ready) :: rest ∧
        step s = .next { s with inputs := rest, pixelReady := ready }) ∨
      (∃ ready, s.inputs = .event (.sink ready) :: rest ∧
        step s = .next { s with inputs := rest, sinkReady := ready }) ∨
      (∃ p byte, s.inputs = .event (.imageChange p byte) :: rest ∧
        step s = .next (changePixel p byte { s with inputs := rest })) ∨
      (∃ byte, s.inputs = .event (.lateResponse byte) :: rest ∧ step s = .next { s with inputs := rest }) ∨
      (∃ same, s.inputs = .reset same :: rest ∧
        step s = .next (resetBlock { s with inputs := (same.map Input.event).toList ++ rest })) := by
  cases hi : s.inputs with
  | nil => exact .inl ⟨rfl, step_no_event hi⟩
  | cons x rest =>
    refine .inr ⟨rest, ?_⟩
    cases x with
    | reset same => exact .inr (.inr (.inr (.inr (.inr (.inr ⟨same, rfl, step_reset hi⟩)))))
    | event e =>
      cases e with
      | host r => exact .inl ⟨r, rfl, step_host hi⟩
      | sample => exact .inr (.inl ⟨rfl, step_sample hi⟩)
      | pixelSource b => exact .inr (.inr (.inl ⟨b, rfl, step_leave (by unfold nextTurn; rw [hi]; rfl)⟩))
      | sink b => exact .inr (.inr (.inr (.inl ⟨b, rfl, step_leave (by unfold nextTurn; rw [hi]; rfl)⟩)))
      | imageChange p b =>
        exact .inr (.inr (.inr (.inr (.inl ⟨p, b, rfl, step_leave (by unfold nextTurn; rw [hi]; rfl)⟩))))
      | lateResponse b =>
        exact .inr (.inr (.inr (.inr (.inr (.inl ⟨b, rfl, step_leave (by unfold nextTurn; rw [hi]; rfl)⟩)))))

end Sys2Proof.Machine
end

