-- ==== Sys2Proof/Laws/PerInstr.lean ====
section
/-! SUPPORT. Per instruction: the encoder writes each instruction as its row of spec/opcode_table.json says, the row's
match under the row's mask. -/

namespace Sys2Proof.Laws.TableRow

/-- A packet's word as the table numbers it: a descriptor's 16 bits, or the selector with `we` at bit 8. -/
def tableWord : Packet → Nat
  | .seg w => w.toNat
  | .hb r => r.we.toNat * 256 + r.addr.toNat

/-- The mask and the match of an instruction's row. -/
def row : Instr → Nat × Nat
  | .syncA => (0xFFFF, 0x0027)
  | .spaceA => (0xFFFF, 0x202F)
  | .imageA => (0xFFFF, 0x438D)
  | .telemA => (0xFFFF, 0x602D)
  | .syncB => (0xFFFF, 0x1027)
  | .spaceB => (0xFFFF, 0x382F)
  | .imageB => (0xFFFF, 0x538D)
  | .telemB => (0xFFFF, 0x702D)
  | .wrCtrl _ => (0x1FF, 0x100)
  | .rdCtrl => (0x1FF, 0x000)
  | .rdStatus => (0x1FF, 0x004)
  | .wrWidthA _ => (0x1FF, 0x108)
  | .rdWidthA => (0x1FF, 0x008)
  | .wrWidthB _ => (0x1FF, 0x10C)
  | .rdWidthB => (0x1FF, 0x00C)
  | .wrHeightA _ => (0x1FF, 0x110)
  | .rdHeightA => (0x1FF, 0x010)
  | .wrHeightB _ => (0x1FF, 0x114)
  | .rdHeightB => (0x1FF, 0x014)
  | .rdNlines => (0x1FF, 0x018)
  | .rdLine => (0x1FF, 0x01C)
  | .rdPosition => (0x1FF, 0x020)
  | .rdSn => (0x1FF, 0x024)
  | .rdPhase => (0x1FF, 0x028)
  | .rdId => (0x1FF, 0x02C)
  | .rdSegdesc _ => (0x1E3, 0x040)
  | .wrRoStatus _ => (0x1FF, 0x104)
  | .wrRoNlines _ => (0x1FF, 0x118)
  | .wrRoLine _ => (0x1FF, 0x11C)
  | .wrRoPosition _ => (0x1FF, 0x120)
  | .wrRoSn _ => (0x1FF, 0x124)
  | .wrRoPhase _ => (0x1FF, 0x128)
  | .wrRoId _ => (0x1FF, 0x12C)
  | .wrRoSegdesc _ _ => (0x1E3, 0x140)
  | .rdUnmapped _ => (0x100, 0x000)
  | .wrUnmapped _ _ => (0x100, 0x100)

/-- The instruction's encoding, masked by its row's mask, is its row's match. -/
def Statement (i : Instr) : Prop := tableWord (encode i) &&& (row i).1 = (row i).2

theorem syncA : Statement .syncA := rfl

theorem spaceA : Statement .spaceA := rfl

theorem imageA : Statement .imageA := rfl

theorem telemA : Statement .telemA := rfl

theorem syncB : Statement .syncB := rfl

theorem spaceB : Statement .spaceB := rfl

theorem imageB : Statement .imageB := rfl

theorem telemB : Statement .telemB := rfl

theorem wrCtrl (wdata : Word) : Statement (.wrCtrl wdata) := by
  simp [Statement, tableWord, encode, writeRequest, row]

theorem rdCtrl : Statement .rdCtrl := rfl

theorem rdStatus : Statement .rdStatus := rfl

theorem wrWidthA (wdata : Word) : Statement (.wrWidthA wdata) := by
  simp [Statement, tableWord, encode, writeRequest, row]

theorem rdWidthA : Statement .rdWidthA := rfl

theorem wrWidthB (wdata : Word) : Statement (.wrWidthB wdata) := by
  simp [Statement, tableWord, encode, writeRequest, row]

theorem rdWidthB : Statement .rdWidthB := rfl

theorem wrHeightA (wdata : Word) : Statement (.wrHeightA wdata) := by
  simp [Statement, tableWord, encode, writeRequest, row]

theorem rdHeightA : Statement .rdHeightA := rfl

theorem wrHeightB (wdata : Word) : Statement (.wrHeightB wdata) := by
  simp [Statement, tableWord, encode, writeRequest, row]

theorem rdHeightB : Statement .rdHeightB := rfl

theorem rdNlines : Statement .rdNlines := rfl

theorem rdLine : Statement .rdLine := rfl

theorem rdPosition : Statement .rdPosition := rfl

theorem rdSn : Statement .rdSn := rfl

theorem rdPhase : Statement .rdPhase := rfl

theorem rdId : Statement .rdId := rfl

theorem rdSegdesc (n : BitVec 3) : Statement (.rdSegdesc n) := by
  have h : ∀ n : BitVec 3, tableWord (readRequest (segdescOffset n)) &&& 0x1E3 = 0x040 := by decide
  exact h n

theorem wrRoStatus (wdata : Word) : Statement (.wrRoStatus wdata) := by
  simp [Statement, tableWord, encode, writeRequest, row]

theorem wrRoNlines (wdata : Word) : Statement (.wrRoNlines wdata) := by
  simp [Statement, tableWord, encode, writeRequest, row]

theorem wrRoLine (wdata : Word) : Statement (.wrRoLine wdata) := by
  simp [Statement, tableWord, encode, writeRequest, row]

theorem wrRoPosition (wdata : Word) : Statement (.wrRoPosition wdata) := by
  simp [Statement, tableWord, encode, writeRequest, row]

theorem wrRoSn (wdata : Word) : Statement (.wrRoSn wdata) := by
  simp [Statement, tableWord, encode, writeRequest, row]

theorem wrRoPhase (wdata : Word) : Statement (.wrRoPhase wdata) := by
  simp [Statement, tableWord, encode, writeRequest, row]

theorem wrRoId (wdata : Word) : Statement (.wrRoId wdata) := by
  simp [Statement, tableWord, encode, writeRequest, row]

theorem wrRoSegdesc (n : BitVec 3) (wdata : Word) : Statement (.wrRoSegdesc n wdata) := by
  have h : ∀ n : BitVec 3, tableWord (writeRequest (segdescOffset n) 0#32) &&& 0x1E3 = 0x140 := by decide
  exact h n

theorem rdUnmapped (addr : BitVec 8) : Statement (.rdUnmapped addr) := by
  have h : ∀ a : BitVec 8, tableWord (readRequest a) &&& 0x100 = 0x000 := by decide +kernel
  exact h addr

theorem wrUnmapped (addr : BitVec 8) (wdata : Word) : Statement (.wrUnmapped addr wdata) := by
  have h : ∀ a : BitVec 8, tableWord (writeRequest a 0#32) &&& 0x100 = 0x100 := by decide +kernel
  exact h addr

end Sys2Proof.Laws.TableRow
end

