-- ==== Sys2Proof/Tests/Slice0.lean ====
section
/-! SUPPORT. Tests: expected values from spec/95_test_vectors.md and the worked examples of the rules, the refusals of
the checks, and a witness for the hypotheses of every statement that has some. -/

namespace Sys2Proof.Tests

open Sys2Proof.Machine

/-! ## Helpers -/

/-- The next state of an outcome, if it is one. -/
def next? : Host.Outcome State Fault Refusal → Option State
  | .next s => some s
  | _ => none

/-- A next state of which a test holds. -/
theorem next_of_any {o : Host.Outcome State Fault Refusal} {p : State → Bool} (h : (next? o).any p = true) :
    ∃ t, o = .next t ∧ p t = true := by
  cases o with
  | next t => exact ⟨t, rfl, h⟩
  | fault r => cases h
  | refused r => cases h

/-- Idle, with two legal widths and heights 3 and 5 (R113's example). -/
def configured : State :=
  { State.reset with widthA := 909#16, widthB := 909#16, heightA := 3#16, heightB := 5#16 }

/-- Just after an accepted START of a two-image run of one line. -/
def started : State :=
  { State.reset with
    widthA := 909#16, widthB := 909#16, heightA := 1#16, heightB := 1#16, busy := true, nlines := 1#16 }

/-- A run at a position, at phase 0. -/
def runningAt (seg : BitVec 3) (pos : BitVec 10) (sub : BitVec 5) : State :=
  { started with seg := seg, pos := pos, sub := sub }

/-- A run at a position whose request is outstanding. -/
def askedAt (seg : BitVec 3) (pos : BitVec 10) : State := { runningAt seg pos 0#5 with pixPending := true }

/-! ## Well-formedness: an ill-formed term for each check -/

theorem test_wellFormed_refuses_mapped_reads :
    (Instr.rdUnmapped 0x04#8).wellFormed = false ∧ (Instr.rdUnmapped 0x2C#8).wellFormed = false ∧
    (Instr.rdUnmapped 0x5C#8).wellFormed = false := by decide

theorem test_wellFormed_refuses_mapped_writes :
    (Instr.wrUnmapped 0x00#8 1#32).wellFormed = false ∧ (Instr.wrUnmapped 0x40#8 1#32).wellFormed = false := by decide

theorem test_wellFormed_takes_unmapped_offsets :
    (Instr.rdUnmapped 0x30#8).wellFormed = true ∧ (Instr.rdUnmapped 0x60#8).wellFormed = true ∧
    (Instr.wrUnmapped 0x01#8 1#32).wellFormed = true ∧ (Instr.wrUnmapped 0x5D#8 1#32).wellFormed = true := by decide

/-! ## Decoding: every constructor from a word written out from the encoding -/

theorem test_decode_segments :
    [0b0000000000100111#16, 0b0010000000101111#16, 0b0100001110001101#16, 0b0110000000101101#16,
     0b0001000000100111#16, 0b0011100000101111#16, 0b0101001110001101#16, 0b0111000000101101#16].map
      (fun w => decode (.seg w)) =
    [.instr .syncA, .instr .spaceA, .instr .imageA, .instr .telemA,
     .instr .syncB, .instr .spaceB, .instr .imageB, .instr .telemB] := by decide

theorem test_decode_reads :
    [0b00000000#8, 0b00000100#8, 0b00001000#8, 0b00001100#8, 0b00010000#8, 0b00010100#8, 0b00011000#8, 0b00011100#8,
     0b00100000#8, 0b00100100#8, 0b00101000#8, 0b00101100#8, 0b01010100#8, 0b00110000#8].map
      (fun a => decode (.hb ⟨false, a, 7#32⟩)) =
    [.instr .rdCtrl, .instr .rdStatus, .instr .rdWidthA, .instr .rdWidthB, .instr .rdHeightA, .instr .rdHeightB,
     .instr .rdNlines, .instr .rdLine, .instr .rdPosition, .instr .rdSn, .instr .rdPhase, .instr .rdId,
     .instr (.rdSegdesc 5#3), .instr (.rdUnmapped 0x30#8)] := by decide

theorem test_decode_writes :
    [0b00000000#8, 0b00001000#8, 0b00001100#8, 0b00010000#8, 0b00010100#8].map
      (fun a => decode (.hb ⟨true, a, 7#32⟩)) =
    [.instr (.wrCtrl 7#32), .instr (.wrWidthA 7#32), .instr (.wrWidthB 7#32), .instr (.wrHeightA 7#32),
     .instr (.wrHeightB 7#32)] := by decide

theorem test_decode_writes_without_effect :
    [0b00000100#8, 0b00011000#8, 0b00011100#8, 0b00100000#8, 0b00100100#8, 0b00101000#8, 0b00101100#8, 0b01011100#8,
     0b00001001#8].map
      (fun a => decode (.hb ⟨true, a, 7#32⟩)) =
    [.instr (.wrRoStatus 7#32), .instr (.wrRoNlines 7#32), .instr (.wrRoLine 7#32), .instr (.wrRoPosition 7#32),
     .instr (.wrRoSn 7#32), .instr (.wrRoPhase 7#32), .instr (.wrRoId 7#32), .instr (.wrRoSegdesc 7#3 7#32),
     .instr (.wrUnmapped 9#8 7#32)] := by decide

/-- One descriptor for each refusal (R72; `SPACE A, 0, 46` is not in the program). -/
theorem test_decode_refuses_by_name :
    [0x8027#16, 0x0427#16, 0x0827#16, 0x2000#16, 0x0028#16, 0x438C#16, 0x202E#16].map (fun w => decode (.seg w)) =
    [.rejected .reservedOp, .rejected .reservedBit, .rejected .levelOnNonSpace, .rejected .zeroLength,
     .rejected .syncLength, .rejected .imageLength, .rejected .notInProgram] := by decide

theorem test_table_words :
    decodeTableWord 16 0x0027 = some .syncA ∧ decodeTableWord 9 0x027 = some (.rdUnmapped 0x27#8) ∧
    decodeTableWord 16 0x702D = some .telemB ∧ decodeTableWord 16 0x100 = some (.wrCtrl 0#32) ∧
    decodeTableWord 16 0x05C = some (.rdSegdesc 7#3) ∧ decodeTableWord 16 0x8000 = none := by decide

/-! ## A table word as the first instruction after reset -/

theorem test_withFetchWord_runs_a_host_read :
    (next? (step (State.reset.withFetchWord 16 0x02C))).map (·.response) = some (some 0x00000103#32) := by
  decide +kernel

theorem test_withFetchWord_runs_a_segment :
    (next? (step (State.reset.withFetchWord 16 0x382F))).map (fun s => (s.sym, s.stream, s.seg, s.sub)) =
      some (255#8, [128#8], 5#3, 1#5) := by
  decide +kernel

/-! ## Constants -/

/-- The LUT against the formula's exact values (spec/95_test_vectors.md 1.3). -/
theorem test_telemetry_by_line :
    [0, 7, 8, 31, 32, 56, 63, 64, 127, 128, 129, 136, 184, 200, 65535].map (fun l => telem (BitVec.ofNat 16 l)) =
      [32#8, 32#8, 64#8, 128#8, 159#8, 0#8, 0#8, 0#8, 0#8, 32#8, 32#8, 64#8, 0#8, 0#8, 0#8] := by decide

/-- The codewords as spec/95_test_vectors.md 1.2 groups them: 14 and 21 ones. -/
theorem test_codewords_count_ones :
    ((List.range 39).filter (syncCodeA.getMsbD ·)).length = 14 ∧
    ((List.range 39).filter (syncCodeB.getMsbD ·)).length = 21 := by decide

theorem test_descriptor_text :
    descriptorText descSyncA = "SYNC A, 39" ∧ descriptorText descSpaceB = "SPACE B, 255, 47" ∧
    descriptorText descImageA = "IMAGE A, 909" ∧ descriptorText descTelemB = "TELEM B, 45" := by decide +kernel

/-! ## The modulator (spec/95_test_vectors.md 2.5) -/

theorem test_modulator_oversample_3 :
    [0, 3, 18, 39, 57, 75].map (fun k => modulatorByte 3#5 255#8 (BitVec.ofNat 10 k)) =
      [128#8, 149#8, 216#8, 128#8, 39#8, 106#8] ∧
    [0, 3, 18, 39, 57, 75].map (fun k => modulatorByte 3#5 1#8 (BitVec.ofNat 10 k)) =
      [128#8, 128#8, 128#8, 128#8, 127#8, 127#8] := by decide +kernel

theorem test_modulator_oversample_9 :
    [3, 6, 57, 60, 117, 174, 177].map (fun k => modulatorByte 9#5 255#8 (BitVec.ofNat 10 k)) =
      [135#8, 142#8, 217#8, 217#8, 128#8, 38#8, 38#8] := by decide +kernel

/-- Exact ties round up: OVERSAMPLE 2 at sin = ±1 (spec/95_test_vectors.md 2.5). -/
theorem test_modulator_ties :
    modulatorByte 2#5 20#8 13#10 = 135#8 ∧ modulatorByte 2#5 20#8 39#10 = 121#8 ∧
    modulatorByte 2#5 40#8 13#10 = 142#8 ∧ modulatorByte 2#5 40#8 39#10 = 114#8 := by decide +kernel

/-- The transcription check of R109: the row sums. -/
theorem test_table_sums_oversample_3 : tableOs3.map rowSum = tableSumsOs3 := by decide +kernel

/-- The transcription check of R110: the row sums. -/
theorem test_table_sums_oversample_9 : tableOs9.map rowSum = tableSumsOs9 := by decide +kernel

/-- The phase sequence of OVERSAMPLE 1 (spec/95_test_vectors.md 2.5). -/
theorem test_phase_sequence :
    nextPhase 1#5 0#10 = 15#10 ∧ nextPhase 1#5 15#10 = 4#10 ∧ nextPhase 1#5 4#10 = 19#10 ∧
    nextPhase 3#5 75#10 = 12#10 ∧ phaseReachable 3#5 1#10 = false := by decide

/-! ## Segment operations: the worked examples of R84 to R91 and R107 -/

theorem test_first_sample :
    (next? (exec .syncA started)).map (fun s => (s.stream, s.sn, s.phase, s.sub, s.sym)) =
      some ([128#8], 1#32, 15#10, 1#5, 0#8) := by decide +kernel

/-- R84: SYNC_A POS 4 at k = 24, 39, 54 emits 211, 128, 44. -/
theorem test_syncA_one :
    (next? (exec .syncA { runningAt 0#3 4#10 0#5 with phase := 24#10 })).map (·.stream) = some [211#8] ∧
    (next? (exec .syncA { runningAt 0#3 4#10 2#5 with phase := 54#10, sym := 255#8 })).map
      (fun s => (s.stream, s.pos, s.sub)) = some ([44#8], 5#10, 0#5) := by decide +kernel

theorem test_spaceA :
    (next? (exec .spaceA { runningAt 1#3 46#10 2#5 with phase := 33#10 })).map
      (fun s => (s.stream, s.seg, s.pos, s.sub)) = some ([128#8], 2#3, 0#10, 0#5) := by decide +kernel

/-- R86: a white pixel at k = 48 emits 68, with one request. -/
theorem test_imageA_white :
    (next? (exec .imageA { runningAt 2#3 0#10 0#5 with phase := 48#10, pixels := [(0, 255#8)] })).map
      (fun s => (s.stream, s.requests, s.pixPending)) = some ([68#8], [⟨.a, 0#10, 0#16⟩], false) := by decide +kernel

/-- A line past the image is black and makes no request. -/
theorem test_imageA_past_height :
    (next? (exec .imageA { runningAt 2#3 0#10 0#5 with heightA := 0#16, pixels := [(0, 255#8)], phase := 48#10 })).map
      (fun s => (s.stream, s.requests, s.sym)) = some ([128#8], [], 0#8) := by decide +kernel

/-- R87: line 0 at k = 3 emits 130. -/
theorem test_telemA :
    (next? (exec .telemA { runningAt 3#3 0#10 0#5 with phase := 3#10 })).map (fun s => (s.stream, s.sym)) =
      some ([130#8], 32#8) := by decide +kernel

/-- R88: character 6 of SYNC_B is '1', of SYNC_A '0'. -/
theorem test_syncB_differs :
    (next? (exec .syncB (runningAt 4#3 6#10 0#5))).map (·.sym) = some 255#8 ∧
    (next? (exec .syncA (runningAt 0#3 6#10 0#5))).map (·.sym) = some 0#8 := by decide +kernel

/-- R89: SPACE_B at k = 54 emits 44. -/
theorem test_spaceB :
    (next? (exec .spaceB { runningAt 5#3 0#10 0#5 with phase := 54#10 })).map (·.stream) = some [44#8] := by
  decide +kernel

/-- R90: IMAGE_B reads image B, and image A in single-image mode. -/
theorem test_imageB_source :
    (next? (exec .imageB { runningAt 6#3 1#10 0#5 with pixels := [(0x10000, 7#8), (0x4010000, 9#8)] })).map
      (fun s => (s.sym, s.requests)) = some (9#8, [⟨.b, 1#10, 0#16⟩]) ∧
    (next? (exec .imageB
      { runningAt 6#3 1#10 0#5 with single := true, pixels := [(0x10000, 7#8), (0x4010000, 9#8)] })).map
      (fun s => (s.sym, s.requests)) = some (7#8, [⟨.a, 1#10, 0#16⟩]) := by decide +kernel

/-- R91: the last sample of a run, byte 117 at k = 63, clears BUSY and sets DONE. -/
theorem test_telemB_ends_the_run :
    (next? (exec .telemB { runningAt 7#3 44#10 2#5 with phase := 63#10, sym := 32#8, sn := 6239#32 })).map
      (fun s => (s.stream, statusWord s, s.line, s.sn, s.phase)) =
      some ([117#8], 0x02#32, 1#16, 6240#32, 0#10) := by decide +kernel

theorem test_stall_holds_the_byte :
    (next? (exec .syncA { started with sinkReady := false })).map (fun s => (s.outHold, s.stream, s.sn, s.sub)) =
      some (some 128#8, [], 0#32, 0#5) := by decide +kernel

theorem test_reset_drops_the_held_byte :
    (next? (step { started with outHold := some 44#8, stream := [128#8], inputs := [.reset none] })).map
      (fun s => (s.outHold, s.stream, s.busy, s.widthA)) = some (none, [128#8], false, 0#16) := by decide +kernel

/-! ## Host operations (spec/95_test_vectors.md 2.8 to 2.10) -/

theorem test_wrCtrl_start :
    (next? (exec (.wrCtrl 1#32) configured)).map (fun s => (statusWord s, s.nlines)) = some (0x01#32, 5#16) ∧
    (next? (exec (.wrCtrl 3#32) configured)).map (fun s => (ctrlWord s, s.nlines)) = some (0x02#32, 3#16) := by decide

theorem test_wrCtrl_errors :
    (next? (exec (.wrCtrl 7#32) State.reset)).map (fun s => (statusWord s, ctrlWord s)) =
      some (0x1C#32, 0x06#32) ∧
    (next? (exec (.wrCtrl 1#32) { configured with widthA := 910#16 })).map statusWord = some 0x14#32 ∧
    (next? (exec (.wrCtrl 1#32) { configured with widthB := 5#16 })).map statusWord = some 0x24#32 ∧
    (next? (exec (.wrCtrl 3#32) { configured with widthB := 5#16 })).map statusWord = some 0x01#32 := by decide

theorem test_wrCtrl_empty_run :
    (next? (exec (.wrCtrl 5#32) { configured with heightA := 0#16, heightB := 0#16 })).map
      (fun s => (statusWord s, s.nlines)) = some (0x0A#32, 0#16) := by decide

theorem test_wrWidthA_drops_high_bits :
    (next? (exec (.wrWidthA 0x1038D#32) State.reset)).map (·.widthA) = some 909#16 ∧
    (next? (exec (.wrHeightA 0xFFFFFFFF#32) State.reset)).map (·.heightA) = some 0xFFFF#16 := by decide

theorem test_writes_during_a_run_are_lost :
    (next? (exec (.wrHeightA 5#32) started)).map (·.heightA) = some 1#16 ∧
    (next? (exec (.wrCtrl 7#32) started)).map (fun s => (s.single, s.irqEn, s.sn)) =
      some (false, true, 0#32) := by decide

theorem test_rdPosition :
    (next? (exec .rdPosition (runningAt 2#3 1#10 2#5))).map (·.response) = some (some 0x00020012#32) ∧
    (next? (exec .rdPosition (runningAt 7#3 44#10 2#5))).map (·.response) = some (some 0x000202C7#32) := by decide

theorem test_rdSegdesc : (next? (exec (.rdSegdesc 2#3) State.reset)).map (·.response) = some (some 0x438D#32) := by
  decide

/-- The script of program P4 (spec/95_test_vectors.md 3.4): DONE at once. -/
theorem test_script_of_an_empty_run :
    (next? (Host.Core.run Sys2Proof.core 6
      { State.reset with inputs := scriptConfig 909#32 0#32 909#32 0#32 ++ scriptRun 0#32 1 })).map (·.response) =
      some (some 2#32) := by decide

/-! ## Pixel memory -/

theorem test_memory_write :
    memWrite [(1, 7#8), (5, 9#8)] 3 8#8 = [(1, 7#8), (3, 8#8), (5, 9#8)] ∧
    memWrite [(1, 7#8), (5, 9#8)] 5 0#8 = [(1, 7#8)] := by decide

theorem test_changed_pixel_is_marked :
    (next? (step { started with inputs := [.event (.imageChange ⟨.b, 3#10, 0#16⟩ 9#8)] })).map
      (fun s => (s.pixels, s.changed)) = some ([(0x4030000, 9#8)], [0x4030000]) := by decide

/-! ## Witnesses for the statements' hypotheses -/

theorem witness_DecodeOfEncodeIsTheInstruction :
    (Instr.rdUnmapped 0x30#8).wellFormed = true ∧ (Instr.wrUnmapped 0xFF#8 1#32).wellFormed = true := by decide

theorem witness_ReservedDescriptorsAreRefused : reservedDescriptor 0x8027#16 = true := by decide

/-- Boundary offsets of the unmapped ranges of HostBusDecodeTable and UnmappedOffsetsAreInert. -/
theorem witness_UnmappedOffsetsAreInert :
    ∀ a ∈ [0x01#8, 0x30#8, 0x3C#8, 0x60#8, 0xFC#8],
      a.toNat % 4 ≠ 0 ∨ (0x2C < a.toNat ∧ a.toNat < 0x40) ∨ 0x5C < a.toNat := by decide

theorem witness_StepRunsTheHostRequest :
    let s : State := { State.reset with inputs := [.event (.host ⟨false, 0x2C#8, 0#32⟩)] }
    s.inputs = .event (.host ⟨false, 0x2C#8, 0#32⟩) :: [] ∧
      decode (.hb ⟨false, 0x2C#8, 0#32⟩) = .instr .rdId ∧ Instr.rdId.wellFormed = true := by decide

theorem witness_StepRunsTheSegmentDescriptor :
    started.busy = true ∧ decode (.seg (segDesc started.seg)) = .instr .syncA ∧ started.inputs = [] ∧
    ({ started with inputs := [.event .sample] } : State).inputs = .event .sample :: [] := by decide

theorem witness_IdleBlockHoldsItsState :
    State.reset.busy = false ∧ State.reset.inputs = [] ∧
    ({ State.reset with inputs := [.event .sample] } : State).inputs = .event .sample :: [] := by decide

theorem witness_EnvironmentEventsSetTheirLines :
    ({ started with inputs := [.event (.pixelSource false)] } : State).inputs = .event (.pixelSource false) :: [] ∧
    ({ started with inputs := [.event (.sink false)] } : State).inputs = .event (.sink false) :: [] ∧
    ({ started with inputs := [.event (.lateResponse 7#8)] } : State).inputs = .event (.lateResponse 7#8) :: [] := by
  decide

theorem witness_ImageChangeWritesOnePixel :
    let s : State := { started with inputs := [.event (.imageChange ⟨.b, 908#10, 0#16⟩ 9#8)] }
    memWf s.pixels = true ∧ (908#10).toNat < 909 ∧
      s.inputs = .event (.imageChange ⟨.b, 908#10, 0#16⟩ 9#8) :: [] := by decide

theorem witness_ReadOnlyRegistersIgnoreWrites :
    (∃ t, step { configured with done := true, inputs := [.event (.host ⟨true, 0#8, 1#32⟩)] } = .next t ∧
      (!t.done) = true) ∧
    ∃ t, step { configured with cfgErr := true, errcode := 1#4, inputs := [.reset none] } = .next t ∧
      (!t.cfgErr) = true := ⟨next_of_any (by decide), next_of_any (by decide)⟩

theorem witness_ControlWritesSetTheEnables :
    started.busy = true ∧ configured.busy = false ∧ (6#32).getLsbD 0 = false := by decide

theorem witness_StartBeginsARunOrRecordsTheError :
    configured.busy = false ∧ (1#32).getLsbD 0 = true ∧ configured.widthA = 909#16 ∧
      ((1#32).getLsbD 1 = true ∨ configured.widthB = 909#16) := by decide

theorem witness_StartBeginsARunOrRecordsTheError_single :
    let s : State := { configured with widthB := 0#16, heightA := 0#16 }
    s.busy = false ∧ (3#32).getLsbD 0 = true ∧ s.widthA = 909#16 ∧
      ((3#32).getLsbD 1 = true ∨ s.widthB = 909#16) := by decide

theorem witness_StartBeginsARunOrRecordsTheError_error :
    (let s : State := { configured with widthA := 908#16 }
     s.busy = false ∧ (1#32).getLsbD 0 = true ∧ s.widthA ≠ 909#16) ∧
    (let s : State := { configured with widthB := 910#16 }
     s.busy = false ∧ (1#32).getLsbD 0 = true ∧ s.widthA = 909#16 ∧ (1#32).getLsbD 1 = false ∧ s.widthB ≠ 909#16) := by
  decide

theorem witness_HostOperationsKeepTheRun :
    ¬ (true = true ∧ 0x00#8 = 0x00#8 ∧ (1#32).getLsbD 0 = true ∧ started.busy = false) := by decide

/-- Ready positions, the first and the last of their segments. -/
theorem witness_SyncOperationsEmitTheCodewords :
    (runningAt 0#3 38#10 0#5).sub = 0#5 ∧ Ready descSyncA (runningAt 0#3 38#10 0#5) ∧
      Ready descSyncB (runningAt 4#3 0#10 0#5) :=
  ⟨rfl, ⟨⟨rfl, by decide, by decide⟩, rfl, rfl⟩, ⟨⟨rfl, by decide, by decide⟩, rfl, rfl⟩⟩

theorem witness_SpaceOperationsEmitTheirLevels :
    (runningAt 1#3 46#10 0#5).sub = 0#5 ∧ Ready descSpaceA (runningAt 1#3 46#10 0#5) ∧
      Ready descSpaceB (runningAt 5#3 0#10 0#5) :=
  ⟨rfl, ⟨⟨rfl, by decide, by decide⟩, rfl, rfl⟩, ⟨⟨rfl, by decide, by decide⟩, rfl, rfl⟩⟩

theorem witness_ImageOperationsEmitThePixel_a :
    let s := runningAt 2#3 908#10 0#5
    s.sub = 0#5 ∧ s.pixPending = false ∧ s.pixelReady = true ∧ Ready descImageA s ∧
      s.line.toNat < s.heightA.toNat ∧ pixelAddr ⟨.a, s.pos, s.line⟩ ∉ s.changed :=
  ⟨rfl, rfl, rfl, ⟨⟨rfl, by decide, by decide⟩, rfl, rfl⟩, by decide, by decide⟩

theorem witness_ImageOperationsEmitThePixel_b :
    let s := runningAt 6#3 0#10 0#5
    s.sub = 0#5 ∧ s.pixPending = false ∧ s.pixelReady = true ∧ Ready descImageB s ∧
      s.line.toNat < (if s.single then s.heightA else s.heightB).toNat ∧
      pixelAddr ⟨if s.single then .a else .b, s.pos, s.line⟩ ∉ s.changed :=
  ⟨rfl, rfl, rfl, ⟨⟨rfl, by decide, by decide⟩, rfl, rfl⟩, by decide, by decide⟩

theorem witness_ImageOperationsPadWithBlack :
    let s : State := { runningAt 2#3 0#10 0#5 with heightA := 0#16, heightB := 0#16 }
    s.sub = 0#5 ∧ Ready descImageA s ∧ s.heightA.toNat ≤ s.line.toNat ∧ Ready descImageB s ∧
      (if s.single then s.heightA else s.heightB).toNat ≤ s.line.toNat :=
  ⟨rfl, ⟨⟨rfl, by decide, by decide⟩, rfl, rfl⟩, by decide, ⟨⟨rfl, by decide, by decide⟩, rfl, rfl⟩, by decide⟩

theorem witness_TelemetryOperationsEmitTheWedge :
    (runningAt 3#3 44#10 0#5).sub = 0#5 ∧ Ready descTelemA (runningAt 3#3 44#10 0#5) ∧
      Ready descTelemB (runningAt 7#3 0#10 0#5) :=
  ⟨rfl, ⟨⟨rfl, by decide, by decide⟩, rfl, rfl⟩, ⟨⟨rfl, by decide, by decide⟩, rfl, rfl⟩⟩

theorem witness_LaterSamplesUseTheLatchedSymbol :
    (Instr.imageA, descImageA) ∈ segmentOps ∧ (runningAt 2#3 5#10 2#5).sub ≠ 0#5 ∧
      Ready descImageA (runningAt 2#3 5#10 2#5) :=
  ⟨by decide, by decide, ⟨⟨rfl, by decide, by decide⟩, rfl, rfl⟩⟩

theorem witness_SilentPixelSourceStallsTheStep :
    let s : State := { runningAt 2#3 5#10 0#5 with pixelReady := false }
    (Instr.imageA, descImageA) ∈ segmentOps ∧ Enabled descImageA s ∧ s.outHold = none ∧
      needsPixel descImageA s = true ∧ s.pixelReady = false ∧ s.pixPending = false ∧
      Enabled descImageA { s with pixPending := true } :=
  ⟨by decide, ⟨rfl, by decide, by decide⟩, rfl, by decide, rfl, rfl, ⟨rfl, by decide, by decide⟩⟩

theorem witness_AnsweredRequestCompletesTheStep :
    let s := askedAt 6#3 908#10
    (Instr.imageB, descImageB) ∈ segmentOps ∧ Ready descImageB s ∧ needsPixel descImageB s = true ∧
      s.pixelReady = true ∧ s.pixPending = true ∧ pixelAddr (pixelRequest descImageB s) ∉ s.changed :=
  ⟨by decide, ⟨⟨rfl, by decide, by decide⟩, rfl, rfl⟩, by decide, rfl, rfl, by decide⟩

theorem witness_HeldByteWaitsForTheSink :
    let s : State := { runningAt 0#3 5#10 0#5 with sinkReady := false }
    (Instr.syncA, descSyncA) ∈ segmentOps ∧ Enabled descSyncA s ∧ s.outHold = none ∧ s.sinkReady = false ∧
      needsPixel descSyncA s = false ∧ Enabled descSyncA { s with outHold := some 44#8 } ∧
      Enabled descSyncA { s with outHold := some 44#8, sinkReady := true } :=
  ⟨by decide, ⟨rfl, by decide, by decide⟩, rfl, rfl, by decide, ⟨rfl, by decide, by decide⟩,
    ⟨rfl, by decide, by decide⟩⟩

/-- An answered pixel whose byte the sink does not accept. -/
theorem witness_HeldByteWaitsForTheSink_pixel :
    let s : State := { runningAt 2#3 908#10 0#5 with sinkReady := false }
    (Instr.imageA, descImageA) ∈ segmentOps ∧ Enabled descImageA s ∧ s.outHold = none ∧ s.sinkReady = false ∧
      needsPixel descImageA s = true ∧ s.pixelReady = true :=
  ⟨by decide, ⟨rfl, by decide, by decide⟩, rfl, rfl, by decide, rfl⟩

theorem witness_ChangedPixelReadsAFreeValue :
    let s : State := { runningAt 2#3 3#10 0#5 with changed := [0x30000] }
    (Instr.imageA, descImageA) ∈ segmentOps ∧ Ready descImageA s ∧ needsPixel descImageA s = true ∧
      s.pixelReady = true ∧ pixelAddr (pixelRequest descImageA s) ∈ s.changed :=
  ⟨by decide, ⟨⟨rfl, by decide, by decide⟩, rfl, rfl⟩, by decide, rfl, by decide⟩

/-- The request is outstanding when its pixel has changed. -/
theorem witness_ChangedPixelReadsAFreeValue_outstanding :
    let s : State := { askedAt 6#3 908#10 with changed := [0x78C0000] }
    (Instr.imageB, descImageB) ∈ segmentOps ∧ Ready descImageB s ∧ needsPixel descImageB s = true ∧
      s.pixelReady = true ∧ s.pixPending = true ∧ pixelAddr (pixelRequest descImageB s) ∈ s.changed :=
  ⟨by decide, ⟨⟨rfl, by decide, by decide⟩, rfl, rfl⟩, by decide, rfl, rfl, by decide⟩

/-- Each of the five cases of the advance has a state. -/
theorem witness_AdvanceMovesByOneSample :
    (let s := runningAt 7#3 44#10 1#5; s.sub.toNat + 1 < s.oversample.toNat) ∧
    (let s := runningAt 7#3 43#10 2#5; s.oversample.toNat ≤ s.sub.toNat + 1 ∧ s.pos.toNat + 1 < descTelemB.len.toNat) ∧
    (let s := runningAt 6#3 908#10 2#5; s.oversample.toNat ≤ s.sub.toNat + 1 ∧
      descImageB.len.toNat ≤ s.pos.toNat + 1 ∧ s.seg ≠ 7#3) ∧
    (let s : State := { runningAt 7#3 44#10 2#5 with nlines := 2#16 }; s.oversample.toNat ≤ s.sub.toNat + 1 ∧
      descTelemB.len.toNat ≤ s.pos.toNat + 1 ∧ s.seg = 7#3 ∧ s.line + 1#16 ≠ s.nlines) ∧
    (let s := runningAt 7#3 44#10 2#5; s.oversample.toNat ≤ s.sub.toNat + 1 ∧
      descTelemB.len.toNat ≤ s.pos.toNat + 1 ∧ s.seg = 7#3 ∧ s.line + 1#16 = s.nlines) := by decide

theorem witness_SegmentOperationsFrame :
    (Instr.syncA, descSyncA) ∈ segmentOps ∧ ∃ t, exec .syncA started = .next t ∧ (t.sn == 1#32) = true :=
  ⟨by decide, next_of_any (by decide +kernel)⟩

theorem witness_PixelRequestsLieInTheContract :
    (Instr.imageA, descImageA) ∈ segmentOps ∧
      ∃ t, exec .imageA (runningAt 2#3 908#10 0#5) = .next t ∧
        (t.requests != (runningAt 2#3 908#10 0#5).requests) = true :=
  ⟨by decide, next_of_any (by decide +kernel)⟩

theorem witness_UnreachablePositionsFault :
    (Instr.syncA, descSyncA) ∈ segmentOps ∧ started.busy = true ∧
    (let s : State := { started with phase := 1#10 }
     ¬ (s.phase.toNat < 26 * s.oversample.toNat ∧
      s.phase.toNat % Nat.gcd 15 (26 * s.oversample.toNat) = 0)) ∧
    (let s := runningAt 0#3 39#10 0#5
     phaseReachable s.oversample s.phase = true ∧ descSyncA.len.toNat ≤ s.pos.toNat) := by decide

theorem witness_StallsDoNotChangeTheSample :
    (Instr.imageA, descImageA) ∈ segmentOps ∧ Enabled descImageA (runningAt 2#3 908#10 0#5) ∧
      (runningAt 2#3 908#10 0#5).outHold = none ∧ needsPixel descImageA (runningAt 2#3 908#10 0#5) = true ∧
      ∃ t, exec .imageA { runningAt 2#3 908#10 0#5 with pixelReady := true, sinkReady := true } = .next t ∧
        (t.sub == 1#5) = true :=
  ⟨by decide, ⟨rfl, by decide, by decide⟩, rfl, by decide, next_of_any (by decide +kernel)⟩

/-- Pixel lists and marks that differ at pixel (0, 0) of image B, address 2^26. -/
theorem witness_SingleImageModeIgnoresImageB :
    (Instr.imageB, descImageB) ∈ segmentOps ∧ ({ runningAt 6#3 0#10 0#5 with single := true } : State).single = true ∧
      (∀ q : PixRequest, q.ch = .a →
        memRead [(0x4000000, 9#8)] (pixelAddr q) = pixelAt { runningAt 6#3 0#10 0#5 with single := true } q ∧
        (pixelAddr q ∈ [0x4000000] ↔
          pixelAddr q ∈ ({ runningAt 6#3 0#10 0#5 with single := true } : State).changed)) ∧
      ∃ t, exec .imageB { runningAt 6#3 0#10 0#5 with single := true } = .next t ∧ (t.sub == 1#5) = true := by
  refine ⟨by decide, rfl, fun q hq => ?_, next_of_any (by decide +kernel)⟩
  have hlt : pixelAddr q < 0x4000000 := by
    have := q.x.isLt
    have := q.y.isLt
    simp only [pixelAddr, hq, channelNat]
    omega
  refine ⟨?_, by simpa [runningAt, started, State.reset] using hlt.ne⟩
  show (if 0x4000000 = pixelAddr q then 9#8 else unlistedPixel) = unlistedPixel
  rw [if_neg hlt.ne']

theorem witness_SilenceAndZeroCrossingsAre128 : 1 ≤ (1#5).toNat ∧ 1 ≤ (31#5).toNat := by decide

theorem witness_OutputBytesLieBetween38And217 : (805#10).toNat < 26 * (31#5).toNat := by decide

theorem witness_OutputBytesAreTheTableOfOversample3 :
    let s : State := { started with phase := 78#10 }
    (Instr.syncA, descSyncA) ∈ segmentOps ∧ s.busy = true ∧ s.oversample = 3#5 ∧
      ∀ k : Fin 26, s.phase.toNat ≠ 3 * k.val := by decide

theorem witness_OutputBytesAreTheTableOfOversample9 :
    let s : State := { started with oversample := 9#5, phase := 234#10 }
    (Instr.syncA, descSyncA) ∈ segmentOps ∧ s.busy = true ∧ s.oversample = 9#5 ∧
      ∀ k : Fin 78, s.phase.toNat ≠ 3 * k.val := by decide

theorem witness_OutputBytesAreTheExactSineAtOversample3 : 75 < 78 ∧ 75 % 3 = 0 := by decide

theorem witness_OutputBytesAreTheExactSine :
    (1 ≤ (31#5).toNat ∧ 805 < 26 * (31#5).toNat ∧ 805 % Nat.gcd 15 (26 * (31#5).toNat) = 0) ∧
    (1 ≤ (15#5).toNat ∧ 375 < 26 * (15#5).toNat ∧ 375 % Nat.gcd 15 (26 * (15#5).toNat) = 0) := by decide

theorem witness_ResetAbandonsTheRun :
    ({ started with inputs := [.reset none] } : State).inputs = .reset none :: [] ∧
    ({ started with inputs := [.reset (some .sample)] } : State).inputs = .reset (some .sample) :: [] := by decide

/-- The invariant holds in a state of a run, just after START. -/
theorem witness_Inv_started : Inv started where
  oversample_pos := by decide
  pos_lt := by decide
  sub_lt := by decide
  line_le := by decide
  busy_line := by decide
  idle_position := by decide
  sn_position := by decide
  phase_sn := by decide
  done_alone := by decide
  error_code := by decide
  no_error_code := by decide
  idle_quiet := by decide
  pending_image := by decide
  held_byte := by intro byte h; cases h
  run_config := by decide
  pixels_wf := rfl

theorem witness_OutputBytesAreTheTableOfOversample3_inv : Inv started ∧ started.oversample = 3#5 :=
  ⟨witness_Inv_started, rfl⟩

theorem witness_OutputBytesAreTheTableOfOversample9_inv :
    Inv { started with oversample := 9#5 } ∧ ({ started with oversample := 9#5 } : State).oversample = 9#5 :=
  ⟨{ oversample_pos := by decide
     pos_lt := by decide
     sub_lt := by decide
     line_le := by decide
     busy_line := by decide
     idle_position := by decide
     sn_position := by decide
     phase_sn := by decide
     done_alone := by decide
     error_code := by decide
     no_error_code := by decide
     idle_quiet := by decide
     pending_image := by decide
     held_byte := by intro byte h; cases h
     run_config := by decide
     pixels_wf := rfl }, rfl⟩

theorem witness_ChangedPixelReadsAFreeValue_start :
    configured.busy = false ∧ (1#32).getLsbD 0 = true ∧ configured.widthA = 909#16 ∧ configured.widthB = 909#16 := by
  decide

theorem step_started : ∃ t, step started = .next t ∧ (t.sn == 1#32) = true := next_of_any (by decide +kernel)

theorem witness_InvariantIsKeptByEveryStep :
    Inv started ∧ ∃ t, step started = .next t ∧ (t.sn == 1#32) = true := ⟨witness_Inv_started, step_started⟩

theorem witness_NoErrorArisesInARun : Inv started := witness_Inv_started

theorem witness_BusyRisesAndFallsAsR30Says_rise :
    ∃ t, step { configured with inputs := [.event (.host ⟨true, 0#8, 1#32⟩)] } = .next t ∧
      (!configured.busy && t.busy) = true := next_of_any (by decide +kernel)

theorem witness_BusyRisesAndFallsAsR30Says_fall :
    ∃ t, step { started with inputs := [.reset none] } = .next t ∧ (started.busy && !t.busy) = true :=
  next_of_any (by decide +kernel)

/-- BUSY falls with the last sample too. -/
theorem witness_BusyRisesAndFallsAsR30Says_end :
    ∃ t, step { runningAt 7#3 44#10 2#5 with phase := 63#10 } = .next t ∧ (!t.busy && t.done) = true :=
  next_of_any (by decide +kernel)

/-- The last sample of a run of one line meets the invariant. -/
theorem witness_BusyRisesAndFallsAsR30Says_inv :
    Inv { runningAt 7#3 44#10 2#5 with sn := 6239#32, phase := 63#10 } :=
  { oversample_pos := by decide
    pos_lt := by decide
    sub_lt := by decide
    line_le := by decide
    busy_line := by decide
    idle_position := by decide
    sn_position := by decide
    phase_sn := by decide
    done_alone := by decide
    error_code := by decide
    no_error_code := by decide
    idle_quiet := by decide
    pending_image := by decide
    held_byte := by intro byte h; cases h
    run_config := by decide
    pixels_wf := rfl }

theorem witness_ConfigErrorComesOnlyFromStart :
    ∃ t, step { State.reset with inputs := [.event (.host ⟨true, 0#8, 1#32⟩)] } = .next t ∧
      (!State.reset.cfgErr && t.cfgErr) = true := next_of_any (by decide +kernel)

theorem witness_SnCountsTheAcceptedBytes : ∃ t, step started = .next t ∧ (t.sn == 1#32) = true := step_started

/-- SN becomes 0 with a START and with a Reset. -/
theorem witness_SnCountsTheAcceptedBytes_zero :
    (∃ t, step { configured with sn := 5#32, inputs := [.event (.host ⟨true, 0#8, 1#32⟩)] } = .next t ∧
      (t.sn == 0#32) = true) ∧
    ∃ t, step { configured with sn := 5#32, inputs := [.reset none] } = .next t ∧ (t.sn == 0#32) = true :=
  ⟨next_of_any (by decide), next_of_any (by decide)⟩

theorem witness_ConfigurationIsFrozenDuringARun :
    (∃ t, step started = .next t ∧ (t.sn == 1#32) = true) ∧ started.busy = true ∧
      ∀ same rest, started.inputs ≠ .reset same :: rest :=
  ⟨step_started, rfl, by intro same rest h; cases h⟩

theorem witness_EveryLineStartsAtPhaseZero :
    Inv started ∧ started.seg = 0#3 ∧ started.pos = 0#10 ∧ started.sub = 0#5 := ⟨witness_Inv_started, rfl, rfl, rfl⟩

theorem witness_SnDeterminesLineAndPhase : Inv started := witness_Inv_started

theorem witness_SingleImageImageAndTelemetryBytesAreIdentical :
    let s : State := { started with single := true }
    1 ≤ s.oversample.toNat ∧ s.single = true ∧ 86 ≤ 1039 ∧ 1039 < 1040 ∧ 2 < s.oversample.toNat := by decide

theorem witness_OutputIsAPrefixOfTheSignal :
    Inv started ∧ started.busy = true ∧ started.sn = 0#32 ∧ started.outHold = none ∧ started.changed = [] ∧
      (∀ x ∈ started.inputs, quietInput x) ∧
      ∃ t, Host.Core.run Sys2Proof.core 2 started = .next t ∧ (t.sn == 2#32) = true :=
  ⟨witness_Inv_started, rfl, rfl, rfl, rfl, (by intro x h; cases h), next_of_any (by decide +kernel)⟩

/-- Between runs, with a START waiting. -/
def beforeStart (width : Half) : State :=
  { configured with widthA := width, heightA := 0#16, heightB := 2#16,
                    inputs := [.event (.host ⟨true, 0x00#8, 1#32⟩)] }

theorem inv_of_beforeStart (width : Half) : Inv (beforeStart width) where
  oversample_pos := (by decide : 1 ≤ (3#5).toNat)
  pos_lt := (by decide : (0#10).toNat < segLen 0#3)
  sub_lt := (by decide : (0#5).toNat < (3#5).toNat)
  line_le := Nat.le_refl _
  busy_line := by intro h; cases h
  idle_position _ := ⟨rfl, rfl, rfl, rfl⟩
  sn_position := (by decide : (0#32).toNat = ((0#16).toNat * lineSymbols + segStart 0#3 + (0#10).toNat) * (3#5).toNat + (0#5).toNat)
  phase_sn := (by decide : (0#10).toNat = phaseStep * (0#32).toNat % phaseModulus 3#5)
  done_alone := by intro h; cases h
  error_code := by intro h; cases h
  no_error_code _ := rfl
  idle_quiet _ := ⟨rfl, rfl⟩
  pending_image := by intro h; cases h
  held_byte := by intro byte h; cases h
  run_config := by intro h; cases h
  pixels_wf := rfl

/-- A START that begins a run of two lines, and one that is rejected; an input that continues a run, and a quiet
one. -/
theorem witness_RunEmitsExactlyItsSamples :
    (let s := beforeStart 909#16
     Inv s ∧ s.busy = false ∧ s.pixelReady = true ∧ s.sinkReady = true ∧
      s.inputs = .event (.host ⟨true, 0x00#8, 1#32⟩) :: [] ∧ (1#32).getLsbD 0 = true ∧ s.widthA = 909#16 ∧
      ((1#32).getLsbD 1 = true ∨ s.widthB = 909#16)) ∧
    (let s := beforeStart 908#16
     Inv s ∧ s.busy = false ∧ s.inputs = .event (.host ⟨true, 0x00#8, 1#32⟩) :: [] ∧ (1#32).getLsbD 0 = true ∧
      s.widthA ≠ 909#16) ∧
    continuesRun (.event (.imageChange ⟨.a, 0#10, 0#16⟩ 1#8)) ∧ quietInput (.event (.sink false)) ∧
    quietInput (.event (.host ⟨true, 0x00#8, 4#32⟩)) :=
  ⟨⟨inv_of_beforeStart _, rfl, rfl, rfl, rfl, by decide, rfl, .inr rfl⟩,
    ⟨inv_of_beforeStart _, rfl, rfl, by decide, by decide⟩, trivial,
    ⟨trivial, by intro p byte h; cases h⟩, ⟨fun _ _ => by decide, by intro p byte h; cases h⟩⟩

end Sys2Proof.Tests
end

section
/-! What a step runs (spec/00_scope.md R11): the instruction of a host request, the instruction of the segment
descriptor while BUSY = 1, and nothing while BUSY = 0 (spec/60_exceptions.md R146). -/

namespace Sys2Proof.Machine

/-! ## The instruction a packet decodes to -/

/-- A request decodes to one instruction only, that of the selector table (R74). -/
theorem decode_hb_eq_instr_iff (r : HbRequest) (i : Instr) : decode (.hb r) = .instr i ↔ decodeRequest r = i := by
  simp [decode]

/-- The instruction a ROM descriptor decodes to is a SampleStep at that descriptor (spec/41_carrier_modulator.md
R107). -/
theorem exec_eq_sampleStep_of_decode_segDesc {n : BitVec 3} {i : Instr} (h : decode (.seg (segDesc n)) = .instr i)
    (s : State) : exec i s = sampleStep (segDescriptor n) s := by
  have hi : segmentInstrAt n = i := by simpa [decode_segDesc] using h
  rw [← hi, exec_segmentInstrAt]

/-! ## A step that may run a SampleStep, by BUSY -/

theorem step_no_event_busy {s : State} (h : s.inputs = []) (hb : s.busy = true) :
    step s = sampleStep (segDescriptor s.seg) s := by
  rw [step_no_event h, if_pos hb]

theorem step_no_event_idle {s : State} (h : s.inputs = []) (hb : s.busy = false) : step s = .next s := by
  rw [step_no_event h, if_neg (by simp [hb])]

theorem step_sample_busy {s : State} {rest : List Input} (h : s.inputs = .event .sample :: rest)
    (hb : s.busy = true) : step s = sampleStep (segDescriptor s.seg) { s with inputs := rest } := by
  rw [step_sample h, if_pos hb]

theorem step_sample_idle {s : State} {rest : List Input} (h : s.inputs = .event .sample :: rest)
    (hb : s.busy = false) : step s = .next { s with inputs := rest } := by
  rw [step_sample h, if_neg (by simp [hb])]

/-! ## The obligations -/

/-- Settles O8: the decoder answers a request with `decodeRequest`, and `step_host` runs just that. -/
theorem stepRunsTheHostRequest : Obligations.StepRunsTheHostRequest := by
  intro s r rest i hinputs hdecode _
  rw [step_host hinputs, (decode_hb_eq_instr_iff r i).mp hdecode]

/-- Settles O9: with BUSY = 1 either step is the SampleStep at SEGDESC[SEG], which is the instruction that descriptor
decodes to. -/
theorem stepRunsTheSegmentDescriptor : Obligations.StepRunsTheSegmentDescriptor := by
  intro s i hbusy hdecode _
  refine ⟨fun hinputs => ?_, fun rest hinputs => ?_⟩
  · rw [step_no_event_busy hinputs hbusy, exec_eq_sampleStep_of_decode_segDesc hdecode]
  · rw [step_sample_busy hinputs hbusy, exec_eq_sampleStep_of_decode_segDesc hdecode]

/-- Settles O11: BUSY = 0 enables no SampleStep, so a step without an event, or with a slot, runs no instruction. -/
theorem idleBlockHoldsItsState : Obligations.IdleBlockHoldsItsState := by
  intro s hidle
  exact ⟨fun hinputs => step_no_event_idle hinputs hidle, fun _ hinputs => step_sample_idle hinputs hidle⟩

end Sys2Proof.Machine
end

section
/-! What one step does to the state (spec/00_scope.md R11): one case per effect. -/

namespace Sys2Proof.Machine

/-! ## The effects of a step -/

/-- The state in which START runs its check: the CTRL write has set IRQ_EN and SINGLE (spec/44_host_commands.md R112),
and START has cleared the outcome of the last run (R113). -/
def checkedState (w : Word) (rest : List Input) (s : State) : State :=
  { s with
    irqEn := w.getLsbD 2
    single := w.getLsbD 1
    done := false
    cfgErr := false
    errcode := 0#4
    response := none
    inputs := rest }

/-- A CTRL write with START is taken while BUSY = 0 (R112). -/
def TakesStart (w : Word) (rest : List Input) (s : State) : Prop :=
  s.inputs = .event (.host ⟨true, 0x00#8, w⟩) :: rest ∧ s.busy = false ∧ w.getLsbD 0 = true

/-- Everything a step can do to a state. -/
inductive StepEffect (s : State) : State → Prop
  /-- No register of the run or of the configuration changes but IRQ_EN. -/
  | quiet {irqEn : Bool} {response : Option Word} {pixelReady sinkReady : Bool} {pixels : List Host.Cell}
      {changed : List Nat} {inputs : List Input} (hwf : memWf s.pixels = true → memWf pixels = true) :
      StepEffect s
        { s with
          irqEn := irqEn, response := response, pixelReady := pixelReady, sinkReady := sinkReady, pixels := pixels,
          changed := changed, inputs := inputs }
  /-- A write of the configuration, which BUSY = 0 lets through (spec/70_reset_and_hazards.md R151). -/
  | configure {irqEn single : Bool} {widthA widthB heightA heightB : Half} {response : Option Word}
      {inputs : List Input} (hidle : s.busy = false) :
      StepEffect s
        { s with
          irqEn := irqEn, single := single, widthA := widthA, widthB := widthB, heightA := heightA,
          heightB := heightB, response := response, inputs := inputs }
  /-- START fails its check (spec/60_exceptions.md R134). -/
  | startRejected (w : Word) (rest : List Input) (code : BitVec 4) (hstart : TakesStart w rest s)
      (hcheck : checkConfig (checkedState w rest s) = some code) :
      StepEffect s (raiseConfigError code (checkedState w rest s))
  /-- START passes its check (spec/44_host_commands.md R113). -/
  | startAccepted (w : Word) (rest : List Input) (hstart : TakesStart w rest s)
      (hcheck : checkConfig (checkedState w rest s) = none) :
      StepEffect s (beginRun (checkedState w rest s))
  /-- One slot of the SampleStep that BUSY = 1 enables (spec/41_carrier_modulator.md R107). -/
  | sample (inputs : List Input) (hbusy : s.busy = true)
      (hpos : s.pos.toNat < (segDescriptor s.seg).len.toNat) :
      StepEffect s (workSample (segDescriptor s.seg) { s with inputs := inputs })
  /-- A Reset (spec/70_reset_and_hazards.md R147). -/
  | reset (same : Option Event) (rest inputs : List Input) (hin : s.inputs = .reset same :: rest) :
      StepEffect s (resetBlock { s with inputs := inputs })

/-- No flag is clear and set at once. -/
theorem flag_conflict {flag : Bool} {P : Prop} (hclear : flag = false) (hset : flag = true) : P :=
  absurd (hclear.symm.trans hset) Bool.false_ne_true

/-- A slot passes while BUSY = 0, and is one slot of the SampleStep at SEGDESC[SEG] while BUSY = 1. -/
theorem slot_effect {s t : State} (inputs : List Input)
    (h : (if s.busy then sampleStep (segDescriptor s.seg) { s with inputs := inputs }
          else .next { s with inputs := inputs }) = .next t) : StepEffect s t := by
  split_ifs at h with hb
  · rcases sampleStep_next h with ⟨hidle, -⟩ | ⟨-, -, hpos, rfl⟩
    · exact flag_conflict hidle hb
    · exact .sample inputs hb hpos
  · cases h
    exact .quiet id

/-- A CTRL write sets the enables, and its START is rejected or begins a run. -/
theorem writeCtrl_effect {s : State} {w : Word} {rest : List Input}
    (hin : s.inputs = .event (.host ⟨true, 0x00#8, w⟩) :: rest) :
    StepEffect s (writeCtrl w { s with inputs := rest }) := by
  rcases writeCtrl_cases w { s with inputs := rest } with ⟨-, hw⟩ | ⟨hidle, -, hw⟩ | ⟨hidle, hgo, hw⟩
  · rw [hw]
    exact .quiet id
  · rw [hw]
    exact .configure hidle
  · rw [hw]
    rcases startRun_cases
        { acknowledge { s with inputs := rest, irqEn := w.getLsbD 2 } with single := w.getLsbD 1 } with
      ⟨code, hcheck, ht⟩ | ⟨hcheck, ht⟩
    · rw [ht]
      exact .startRejected w rest code ⟨hin, hidle, hgo⟩ hcheck
    · rw [ht]
      exact .startAccepted w rest ⟨hin, hidle, hgo⟩ hcheck

/-- A configuration write changes its register while BUSY = 0, and nothing while BUSY = 1. -/
theorem writeIdle_effect {s : State} {w : Word} {f : State → State} (rest : List Input) (hf : isConfigUpdate w f) :
    StepEffect s (writeIdle f { s with inputs := rest }) := by
  by_cases hb : s.busy = true
  · rw [writeIdle_busy (s := { s with inputs := rest }) f hb]
    exact .quiet id
  · have hidle : s.busy = false := by simpa using hb
    rw [writeIdle_idle (s := { s with inputs := rest }) f hidle]
    rcases hf with rfl | rfl | rfl | rfl <;> exact .configure hidle

theorem host_effect {s t : State} {r : HbRequest} {rest : List Input} (hin : s.inputs = .event (.host r) :: rest)
    (h : exec (decodeRequest r) { s with inputs := rest } = .next t) : StepEffect s t := by
  rcases exec_decodeRequest r { s with inputs := rest } with ⟨-, v, hr⟩ | ⟨hwe, ⟨haddr, hr⟩ | ⟨f, hf, hr⟩ | hr⟩ <;>
    obtain rfl := Host.Outcome.next.inj (hr.symm.trans h)
  · exact .quiet id
  · obtain ⟨we, addr, w⟩ := r
    obtain rfl : we = true := hwe
    obtain rfl : addr = 0x00#8 := haddr
    exact writeCtrl_effect hin
  · exact writeIdle_effect rest hf
  · exact .quiet id

/-- Every step that answers a next state has one of the effects. -/
theorem stepEffect_of_step {s t : State} (h : step s = .next t) : StepEffect s t := by
  rcases step_cases s with ⟨-, hs⟩ | ⟨rest, ⟨r, hin, hs⟩ | ⟨-, hs⟩ | ⟨ready, -, hs⟩ | ⟨ready, -, hs⟩ |
    ⟨p, byte, -, hs⟩ | ⟨byte, -, hs⟩ | ⟨same, hin, hs⟩⟩ <;> rw [hs] at h
  · exact slot_effect s.inputs h
  · exact host_effect hin h
  · exact slot_effect rest h
  · cases h
    exact .quiet id
  · cases h
    exact .quiet id
  · cases h
    rw [changePixel_eq]
    exact .quiet (changePixel_wf p byte (s := { s with inputs := rest }))
  · cases h
    exact .quiet id
  · cases h
    exact .reset same rest _ hin

/-! ## The events of the environment -/

/-- An event whose turn runs no instruction leaves the state of its turn. -/
theorem step_event_leave {s t : State} {e : Event} {rest : List Input} (h : s.inputs = .event e :: rest)
    (ht : eventTurn e { s with inputs := rest } = .leave t) : step s = .next t :=
  step_leave (by unfold nextTurn; rw [h]; exact ht)

/-- Settles O12: none of the three events runs an instruction. -/
theorem environmentEventsSetTheirLines : Obligations.EnvironmentEventsSetTheirLines := by
  intro s rest ready byte
  exact ⟨fun h => step_event_leave h rfl, fun h => step_event_leave h rfl, fun h => step_event_leave h rfl⟩

end Sys2Proof.Machine
end

section
/-! What a step leaves of SN, the output stream, BUSY, DONE and CFG_ERR (spec/10_state.md R25, R30, R32). -/

namespace Sys2Proof.Machine

/-! ## The acceptance of a byte -/

@[simp] theorem commitSample_sn (d : Descriptor) (byte : Byte) (s : State) :
    (commitSample d byte s).sn = s.sn + 1#32 := by simp [commitSample]
@[simp] theorem commitSample_stream (d : Descriptor) (byte : Byte) (s : State) :
    (commitSample d byte s).stream = s.stream ++ [byte] := by simp [commitSample]
@[simp] theorem commitSample_phase (d : Descriptor) (byte : Byte) (s : State) :
    (commitSample d byte s).phase = nextPhase s.oversample s.phase := by simp [commitSample]
@[simp] theorem commitSample_outHold (d : Descriptor) (byte : Byte) (s : State) :
    (commitSample d byte s).outHold = none := by simp [commitSample]

/-- The position is the last sample of the last line (spec/40_line_framer.md R94). -/
def EndOfRun (d : Descriptor) (s : State) : Prop :=
  s.oversample.toNat ≤ s.sub.toNat + 1 ∧ d.len.toNat ≤ s.pos.toNat + 1 ∧ s.seg = 7#3 ∧ s.line + 1#16 = s.nlines

/-- The advance keeps BUSY and DONE, or ends the run. -/
theorem advance_flags (d : Descriptor) (s : State) :
    ((advance d s).busy = s.busy ∧ (advance d s).done = s.done) ∨
    (EndOfRun d s ∧ (advance d s).busy = false ∧ (advance d s).done = true) := by
  rcases advance_cases d s with ⟨-, ha⟩ | ⟨-, -, ha⟩ | ⟨-, -, -, ha⟩ | ⟨-, -, -, -, ha⟩ |
    ⟨hsub, hpos, hseg, hline, ha⟩ <;> rw [ha]
  · exact .inl ⟨rfl, rfl⟩
  · exact .inl ⟨rfl, rfl⟩
  · exact .inl ⟨rfl, rfl⟩
  · exact .inl ⟨rfl, rfl⟩
  · exact .inr ⟨⟨hsub, hpos, hseg, hline⟩, rfl, rfl⟩

theorem commitSample_flags (d : Descriptor) (byte : Byte) (s : State) :
    ((commitSample d byte s).busy = s.busy ∧ (commitSample d byte s).done = s.done) ∨
    (EndOfRun d s ∧ (commitSample d byte s).busy = false ∧ (commitSample d byte s).done = true) :=
  advance_flags d _

/-! ## SN, the stream and BUSY over one slot -/

/-- No byte was accepted. -/
def CountKept (s t : State) : Prop := t.sn = s.sn ∧ t.stream = s.stream ∧ t.busy = s.busy

/-- One byte was accepted, and the run goes on or ends with it. -/
def ByteAccepted (d : Descriptor) (s t : State) : Prop :=
  t.sn = s.sn + 1#32 ∧ (∃ byte, t.stream = s.stream ++ [byte]) ∧ (t.busy = s.busy ∨ (EndOfRun d s ∧ t.done = true))

theorem commitSample_accepts (d : Descriptor) (byte : Byte) (s : State) :
    ByteAccepted d s (commitSample d byte s) := by
  refine ⟨by simp, ⟨byte, by simp⟩, ?_⟩
  rcases commitSample_flags d byte s with ⟨hbusy, -⟩ | ⟨hend, -, hdone⟩
  · exact .inl hbusy
  · exact .inr ⟨hend, hdone⟩

theorem offerSample_outcome (d : Descriptor) (s : State) :
    CountKept s (offerSample d s) ∨ ByteAccepted d s (offerSample d s) := by
  cases ho : s.outHold with
  | none =>
    rw [offerSample_none ho]
    exact .inl ⟨rfl, rfl, rfl⟩
  | some byte =>
    rw [offerSample_some ho]
    split_ifs
    · exact .inr (commitSample_accepts d byte s)
    · exact .inl ⟨rfl, rfl, rfl⟩

/-- One slot of a SampleStep leaves SN, the stream and BUSY, or accepts a byte: the stages before the acceptance touch
hidden registers only (log 5). -/
theorem workSample_outcome (d : Descriptor) (s : State) :
    CountKept s (workSample d s) ∨ ByteAccepted d s (workSample d s) := by
  rcases workSample_cases d s with ⟨byte, ho, hw⟩ | ⟨-, -, -, hw⟩ | ⟨-, -, -, hw⟩ | ⟨-, -, hw⟩
  · rw [hw, ← offerSample_some ho]
    exact offerSample_outcome d s
  · rw [hw]
    exact .inl (by simp [CountKept])
  · rw [hw]
    simpa [CountKept, ByteAccepted, EndOfRun] using
      offerSample_outcome d (holdSample (takeResponse d (issueRequest d s)))
  · rw [hw]
    simpa [CountKept, ByteAccepted, EndOfRun] using offerSample_outcome d (holdSample (loadSymbol d s))

/-! ## The check of START -/

/-- START's check passes just with legal widths, width B only in two-image mode (spec/60_exceptions.md R135). -/
theorem checkConfig_checkedState_none_iff (w : Word) (rest : List Input) (s : State) :
    checkConfig (checkedState w rest s) = none ↔
      s.widthA = 909#16 ∧ (w.getLsbD 1 = true ∨ s.widthB = 909#16) :=
  checkConfig_none_iff (checkedState w rest s)

theorem checkConfig_checkedState_some_iff (w : Word) (rest : List Input) (s : State) (code : BitVec 4) :
    checkConfig (checkedState w rest s) = some code ↔
      (s.widthA ≠ 909#16 ∧ code = 1#4) ∨
      (s.widthA = 909#16 ∧ w.getLsbD 1 = false ∧ s.widthB ≠ 909#16 ∧ code = 2#4) :=
  checkConfig_some_iff (checkedState w rest s) code

/-! ## The obligations -/

/-- The last sample of a run stands at SEG = 7, POS = 44. -/
theorem endOfRun_pos {s : State} (hpos : s.pos.toNat < (segDescriptor s.seg).len.toNat)
    (hend : EndOfRun (segDescriptor s.seg) s) : s.pos = 44#10 := by
  obtain ⟨-, hlen, hseg, -⟩ := hend
  have h45 : (segDescriptor s.seg).len.toNat = 45 := by rw [hseg]; rfl
  refine BitVec.eq_of_toNat_eq ?_
  simp only [BitVec.toNat_ofNat]
  omega

/-- A flag that keeps its value neither rises nor falls. -/
theorem no_rise_no_fall {before after : Bool} {P Q : Prop} (h : after = before) :
    (before = false → after = true → P) ∧ (before = true → after = false → Q) := by
  subst h
  cases after <;> simp

/-- Settles O51, effect by effect: only an accepted START raises BUSY, and only a Reset or the last byte clears it. -/
theorem busyRisesAndFallsAsR30Says : Obligations.BusyRisesAndFallsAsR30Says := by
  intro s t h
  cases stepEffect_of_step h with
  | quiet => exact no_rise_no_fall rfl
  | configure => exact no_rise_no_fall rfl
  | startRejected => exact no_rise_no_fall rfl
  | startAccepted w rest hstart hcheck =>
    obtain ⟨hin, hidle, hgo⟩ := hstart
    obtain ⟨hwa, hwb⟩ := (checkConfig_checkedState_none_iff w rest s).mp hcheck
    refine ⟨fun _ hrise => ⟨w, rest, hin, hgo, hwa, hwb, ?_⟩, flag_conflict hidle⟩
    simpa using hrise
  | sample inputs hbusy hpos =>
    refine ⟨(flag_conflict · hbusy), fun _ hfall => .inr ?_⟩
    rcases workSample_outcome (segDescriptor s.seg) { s with inputs := inputs } with
      ⟨-, -, hkeep⟩ | ⟨-, hbyte, hkeep | ⟨hend, hdone⟩⟩
    · exact flag_conflict hfall (hkeep.trans hbusy)
    · exact flag_conflict hfall (hkeep.trans hbusy)
    · obtain ⟨hsub, -, hseg, hline⟩ := id hend
      exact ⟨hline, hseg, endOfRun_pos hpos hend, hsub, fun hinv => Nat.le_antisymm hinv.sub_lt hsub, hdone, hbyte⟩
  | reset same rest inputs hin =>
    exact ⟨fun _ => flag_conflict rfl, fun _ _ => .inl ⟨same, rest, hin⟩⟩

/-- Settles O52: of the effects of a step only a rejected START sets CFG_ERR. -/
theorem configErrorComesOnlyFromStart : Obligations.ConfigErrorComesOnlyFromStart := by
  intro s t h hclear hset
  cases stepEffect_of_step h with
  | startRejected w rest code hstart hcheck =>
    obtain ⟨hin, hidle, hgo⟩ := hstart
    exact ⟨w, rest, hin, hidle, hgo, (checkConfig_checkedState_some_iff w rest s code).mp hcheck⟩
  | quiet => exact flag_conflict hclear hset
  | configure => exact flag_conflict hclear hset
  | startAccepted => exact flag_conflict rfl hset
  | sample => exact flag_conflict (by simpa using hclear) hset
  | reset => exact flag_conflict rfl hset

/-- Settles O53: only a slot that accepts a byte counts, and only a Reset or an accepted START sets SN to 0. -/
theorem snCountsTheAcceptedBytes : Obligations.SnCountsTheAcceptedBytes := by
  intro s t h
  cases stepEffect_of_step h with
  | quiet => exact .inl ⟨rfl, rfl⟩
  | configure => exact .inl ⟨rfl, rfl⟩
  | startRejected => exact .inl ⟨rfl, rfl⟩
  | startAccepted w rest hstart hcheck =>
    obtain ⟨hin, hidle, hgo⟩ := hstart
    obtain ⟨hwa, hwb⟩ := (checkConfig_checkedState_none_iff w rest s).mp hcheck
    exact .inr (.inr ⟨rfl, rfl, .inr ⟨w, rest, hin, hidle, hgo, hwa, hwb⟩⟩)
  | sample inputs =>
    rcases workSample_outcome (segDescriptor s.seg) { s with inputs := inputs } with
      ⟨hsn, hstream, -⟩ | ⟨hsn, hbyte, -⟩
    · exact .inl ⟨hsn, hstream⟩
    · exact .inr (.inl ⟨hsn, hbyte⟩)
  | reset same rest inputs hin => exact .inr (.inr ⟨rfl, rfl, .inl ⟨same, rest, hin⟩⟩)

end Sys2Proof.Machine
end

section
/-! The invariant (spec/10_state.md R26, R29 to R32): it holds at reset, and every step keeps it. One lemma per
operation of the block, then one case per effect of a step. -/

namespace Sys2Proof.Machine

/-! ## The position of a run -/

/-- What the invariant says of the position and the lines of a run (spec/10_state.md R29). -/
structure LegalPosition (s : State) : Prop where
  pos_lt : s.pos.toNat < segLen s.seg
  sub_lt : s.sub.toNat < s.oversample.toNat
  line_le : s.line.toNat ≤ s.nlines.toNat
  busy_line : s.busy = true → s.line.toNat < s.nlines.toNat
  idle_position : s.busy = false → s.line = s.nlines ∧ s.seg = 0#3 ∧ s.pos = 0#10 ∧ s.sub = 0#5

/-- The number of samples before the position (spec/40_line_framer.md R96). -/
def sampleIndex (s : State) : Nat :=
  (s.line.toNat * lineSymbols + segStart s.seg + s.pos.toNat) * s.oversample.toNat + s.sub.toNat

theorem Inv.legalPosition {s : State} (h : Inv s) : LegalPosition s := { h with }

/-- Every segment lies within the line. -/
theorem segStart_add_segLen_le (n : BitVec 3) : segStart n + segLen n ≤ lineSymbols := by
  revert n; decide

/-- No run is so long that SN wraps: 65535 lines at OVERSAMPLE 31 are fewer than 2^32 samples. -/
theorem sampleIndex_lt {s : State} (h : LegalPosition s) (hb : s.busy = true) : sampleIndex s + 1 < 2 ^ 32 := by
  have hline := h.busy_line hb
  have hnlines := s.nlines.isLt
  have hos := s.oversample.isLt
  have hsub := h.sub_lt
  have hseg := segStart_add_segLen_le s.seg
  have hpos := h.pos_lt
  have hsymbols : s.line.toNat * lineSymbols + segStart s.seg + s.pos.toNat ≤ 65535 * 2080 := by
    simp only [lineSymbols] at hseg ⊢
    omega
  have hprod := Nat.mul_le_mul hsymbols (Nat.le_of_lt_succ hos)
  simp only [sampleIndex]
  omega

theorem toNat_succ {n : Nat} {x : BitVec n} {bound : Nat} (h : x.toNat < bound) (hb : bound < 2 ^ n) :
    (x + 1#n).toNat = x.toNat + 1 := by
  have hone : 1 < 2 ^ n := by omega
  rw [BitVec.toNat_add, BitVec.toNat_ofNat, Nat.mod_eq_of_lt hone, Nat.mod_eq_of_lt (by omega)]

/-- At the last SUB of a symbol the next position has one symbol more before it. -/
theorem next_symbol_start {oversample sub symbols next : Nat} (hsub : sub < oversample) (hlast : oversample ≤ sub + 1)
    (hnext : next = symbols + 1) : next * oversample + 0 = symbols * oversample + sub + 1 := by
  rw [hnext, Nat.succ_mul]
  omega

theorem line_succ_toNat {s : State} (h : LegalPosition s) (hb : s.busy = true) :
    (s.line + 1#16).toNat = s.line.toNat + 1 :=
  toNat_succ (h.busy_line hb) s.nlines.isLt

/-- The first symbol of a line follows the last symbol of the line before. -/
theorem next_line_start {s : State} (h : LegalPosition s) (hb : s.busy = true) (hseg : s.seg = 7#3)
    (hge : (segDescriptor s.seg).len.toNat ≤ s.pos.toNat + 1) :
    (s.line + 1#16).toNat * lineSymbols + segStart 0#3 + (0#10).toNat =
      s.line.toNat * lineSymbols + segStart s.seg + s.pos.toNat + 1 := by
  have hpos := h.pos_lt
  have hlen := segDescriptor_len s.seg
  have hlast : segStart s.seg + segLen s.seg = lineSymbols := hseg ▸ segStart_last
  rw [line_succ_toNat h hb, Nat.succ_mul, show segStart 0#3 = 0 from rfl, show (0#10).toNat = 0 from rfl]
  omega

/-- The advance of a running block moves to the position of the next sample (spec/40_line_framer.md R94). -/
theorem advance_position {s : State} (h : LegalPosition s) (hb : s.busy = true) :
    LegalPosition (advance (segDescriptor s.seg) s) ∧
      sampleIndex (advance (segDescriptor s.seg) s) = sampleIndex s + 1 := by
  have running {P : Prop} (hidle : s.busy = false) : P := flag_conflict hidle hb
  have hsub := h.sub_lt
  have hpos := h.pos_lt
  have hline := h.busy_line hb
  have hlen := segDescriptor_len s.seg
  have hsub_succ := toNat_succ hsub s.oversample.isLt
  have hline_succ := line_succ_toNat h hb
  have hos : 0 < s.oversample.toNat := Nat.zero_lt_of_lt hsub
  rcases advance_cases (segDescriptor s.seg) s with ⟨hlt, ha⟩ | ⟨hls, hlt, ha⟩ | ⟨hls, hge, hseg, ha⟩ |
    ⟨hls, hge, hseg, hmore, ha⟩ | ⟨hls, hge, hseg, hend, ha⟩ <;> rw [ha]
  · refine ⟨⟨hpos, ?_, h.line_le, h.busy_line, running⟩, ?_⟩
    · simpa only [hsub_succ] using hlt
    · simp only [sampleIndex, hsub_succ]
      omega
  · have hpos_succ := toNat_succ (hlen ▸ hpos) (segDescriptor s.seg).len.isLt
    refine ⟨⟨?_, hos, h.line_le, h.busy_line, running⟩, ?_⟩
    · simpa only [hpos_succ, ← hlen] using hlt
    · exact next_symbol_start hsub hls (by simp only [hpos_succ]; omega)
  · have hstart := segStart_succ s.seg hseg
    refine ⟨⟨segLen_pos _, hos, h.line_le, h.busy_line, running⟩, ?_⟩
    exact next_symbol_start hsub hls (by simp only [hstart, BitVec.toNat_ofNat]; omega)
  · have hmore' : s.line.toNat + 1 ≠ s.nlines.toNat := fun heq =>
      hmore (BitVec.eq_of_toNat_eq (hline_succ.trans heq))
    refine ⟨⟨segLen_pos _, hos, ?_, fun _ => ?_, running⟩, ?_⟩
    · simp only [hline_succ]
      omega
    · simp only [hline_succ]
      omega
    · exact next_symbol_start hsub hls (next_line_start h hb hseg hge)
  · refine ⟨⟨segLen_pos _, hos, ?_, (nomatch ·), fun _ => ⟨hend, rfl, rfl, rfl⟩⟩, ?_⟩
    · simp only [hend, le_refl]
    · exact next_symbol_start hsub hls (next_line_start h hb hseg hge)

/-! ## The stages of a SampleStep -/

theorem nextPhase_toNat {oversample : BitVec 5} (hos : 1 ≤ oversample.toNat) (phase : BitVec 10) :
    (nextPhase oversample phase).toNat = (phase.toNat + phaseStep) % phaseModulus oversample := by
  have hlt : (phase.toNat + phaseStep) % phaseModulus oversample < phaseModulus oversample :=
    Nat.mod_lt _ (by simp only [phaseModulus]; omega)
  have hmod : phaseModulus oversample < 1024 := by
    have := oversample.isLt
    simp only [phaseModulus]
    omega
  exact Nat.mod_eq_of_lt (hlt.trans hmod)

/-- SN does not wrap in a run. -/
theorem sn_succ_toNat {s : State} (h : Inv s) (hb : s.busy = true) : (s.sn + 1#32).toNat = s.sn.toNat + 1 := by
  have hsn : s.sn.toNat = sampleIndex s := h.sn_position
  have hlt := sampleIndex_lt h.legalPosition hb
  exact toNat_succ (bound := 2 ^ 32 - 1) (by omega) (by decide)

theorem done_of_busy {s : State} (h : Inv s) (hb : s.busy = true) : s.done = false :=
  Bool.eq_false_iff.mpr fun hdone => by
    obtain ⟨hidle, -⟩ := h.done_alone hdone
    exact flag_conflict hidle hb

theorem cfgErr_of_busy {s : State} (h : Inv s) (hb : s.busy = true) : s.cfgErr = false :=
  Bool.eq_false_iff.mpr fun herr => by
    obtain ⟨hidle, -⟩ := h.error_code herr
    exact flag_conflict hidle hb

/-- No request is outstanding while a byte is held. -/
theorem pixPending_of_outHold {s : State} {byte : Byte} (h : Inv s) (ho : s.outHold = some byte) :
    s.pixPending = false :=
  Bool.eq_false_iff.mpr fun hpending => by
    obtain ⟨hnone, -⟩ := h.pending_image hpending
    exact absurd (hnone.symm.trans ho) (by simp)

/-- No request is outstanding where the position needs no pixel. -/
theorem pixPending_of_not_needsPixel {s : State} (h : Inv s) (hn : needsPixel (segDescriptor s.seg) s = false) :
    s.pixPending = false :=
  Bool.eq_false_iff.mpr fun hpending => by
    obtain ⟨-, hsub, himage⟩ := h.pending_image hpending
    exact flag_conflict hn (by simp [needsPixel, hsub, himage])

/-- The accepted byte's step: the position, SN and PHASE move on together (spec/20_memory.md R53). -/
theorem commitSample_inv {d : Descriptor} {byte : Byte} {s : State} (h : Inv s) (hd : d = segDescriptor s.seg)
    (hb : s.busy = true) (hq : s.pixPending = false) : Inv (commitSample d byte s) := by
  subst hd
  obtain ⟨hlegal, hindex⟩ : LegalPosition (commitSample (segDescriptor s.seg) byte s) ∧
      sampleIndex (commitSample (segDescriptor s.seg) byte s) = sampleIndex s + 1 :=
    advance_position { h.legalPosition with } hb
  have hsn := sn_succ_toNat h hb
  have hcfg := cfgErr_of_busy h hb
  exact
    { hlegal with
      oversample_pos := by simpa using h.oversample_pos
      sn_position := by
        rw [commitSample_sn, hsn, h.sn_position]
        exact hindex.symm
      phase_sn := by
        rw [commitSample_phase, commitSample_sn, commitSample_oversample, nextPhase_toNat h.oversample_pos, hsn,
          h.phase_sn, Nat.mod_add_mod, Nat.mul_succ]
      done_alone := by
        rcases commitSample_flags (segDescriptor s.seg) byte s with ⟨-, hdone⟩ | ⟨-, hbusy, -⟩
        · simp [hdone, done_of_busy h hb]
        · simp [hbusy, hcfg]
      error_code := by simp [hcfg]
      no_error_code := by simpa using h.no_error_code
      idle_quiet := by simp [hq]
      pending_image := by simp [hq]
      held_byte := by simp
      run_config := fun _ => by simpa [runLines, effHeight] using h.run_config hb
      pixels_wf := by simpa using h.pixels_wf }

/-- A request goes out only where the position needs a pixel. -/
theorem issueRequest_inv {d : Descriptor} {s : State} (h : Inv s) (hd : d = segDescriptor s.seg) (hb : s.busy = true)
    (ho : s.outHold = none) (hn : needsPixel d s = true) : Inv (issueRequest d s) := by
  subst hd
  obtain ⟨hsub, himage⟩ : s.sub = 0#5 ∧ inImage (segDescriptor s.seg) s = true := by
    simpa [needsPixel] using hn
  unfold issueRequest
  split_ifs
  · exact h
  · exact { h with
      idle_quiet := (flag_conflict · hb)
      pending_image := fun _ => ⟨ho, hsub, himage⟩ }

/-- With no byte held SYM may take any value, and an outstanding request may end. -/
theorem latchSymbol_inv {s : State} (h : Inv s) (ho : s.outHold = none) (v : Byte) (used : Nat) {pending : Bool}
    (hp : pending = true → s.pixPending = true) :
    Inv { s with pixPending := pending, sym := v, freeNext := used } :=
  { h with
    idle_quiet := fun hidle => by
      obtain ⟨hquiet, -⟩ := h.idle_quiet hidle
      exact ⟨Bool.eq_false_iff.mpr fun hpending => flag_conflict hquiet (hp hpending), ho⟩
    pending_image := fun hpending => h.pending_image (hp hpending)
    held_byte := fun byte hheld => absurd (ho.symm.trans hheld) (by simp) }

theorem takeResponse_inv {d : Descriptor} {s : State} (h : Inv s) (ho : s.outHold = none) :
    Inv (takeResponse d s) := by
  unfold takeResponse
  split_ifs
  · exact latchSymbol_inv h ho _ _ (nomatch ·)
  · exact latchSymbol_inv h ho _ _ (nomatch ·)

theorem loadSymbol_inv {d : Descriptor} {s : State} (h : Inv s) (ho : s.outHold = none) : Inv (loadSymbol d s) := by
  unfold loadSymbol
  split_ifs
  · exact latchSymbol_inv h ho _ _ id
  · exact h

/-- The byte that goes to the sink is Q(SYM, PHASE). -/
theorem holdSample_inv {s : State} (h : Inv s) (hb : s.busy = true) (hq : s.pixPending = false) :
    Inv (holdSample s) :=
  { h with
    idle_quiet := (flag_conflict · hb)
    pending_image := flag_conflict hq
    held_byte := fun _ hheld => (Option.some.inj hheld).symm }

theorem offerSample_inv {d : Descriptor} {s : State} (h : Inv s) (hd : d = segDescriptor s.seg) (hb : s.busy = true) :
    Inv (offerSample d s) := by
  cases ho : s.outHold with
  | none =>
    rw [offerSample_none ho]
    exact h
  | some byte =>
    rw [offerSample_some ho]
    split_ifs
    · exact commitSample_inv h hd hb (pixPending_of_outHold h ho)
    · exact h

@[simp] theorem takeResponse_pixPending (d : Descriptor) (s : State) : (takeResponse d s).pixPending = false := by
  unfold takeResponse; split_ifs <;> rfl

/-- One slot of a SampleStep keeps the invariant, stage by stage. -/
theorem workSample_inv {d : Descriptor} {s : State} (h : Inv s) (hd : d = segDescriptor s.seg) (hb : s.busy = true) :
    Inv (workSample d s) := by
  rcases workSample_cases d s with ⟨byte, ho, hw⟩ | ⟨ho, hn, -, hw⟩ | ⟨ho, hn, -, hw⟩ | ⟨ho, hn, hw⟩ <;> rw [hw]
  · rw [← offerSample_some ho]
    exact offerSample_inv h hd hb
  · exact issueRequest_inv h hd hb ho hn
  · have htaken : Inv (takeResponse d (issueRequest d s)) :=
      takeResponse_inv (issueRequest_inv h hd hb ho hn) (by simpa using ho)
    have hheld := holdSample_inv htaken (by simpa using hb) (by simp)
    exact offerSample_inv hheld (by simpa using hd) (by simpa using hb)
  · have hquiet : s.pixPending = false := pixPending_of_not_needsPixel h (hd ▸ hn)
    have hheld := holdSample_inv (loadSymbol_inv (d := d) h ho) (by simpa using hb) (by simpa using hquiet)
    exact offerSample_inv hheld (by simpa using hd) (by simpa using hb)

/-! ## START and Reset -/

/-- A configuration write between runs touches nothing the invariant binds while BUSY = 0. -/
theorem configure_inv {s : State} (h : Inv s) (hidle : s.busy = false) (irqEn single : Bool)
    (widthA widthB heightA heightB : Half) (response : Option Word) (inputs : List Input) :
    Inv { s with
      irqEn := irqEn, single := single, widthA := widthA, widthB := widthB, heightA := heightA, heightB := heightB,
      response := response, inputs := inputs } :=
  { h with
    pending_image := fun hpending => by
      obtain ⟨hquiet, -⟩ := h.idle_quiet hidle
      exact flag_conflict hquiet hpending
    run_config := flag_conflict hidle }

theorem checkedState_inv {s : State} (h : Inv s) (hidle : s.busy = false) (w : Word) (rest : List Input) :
    Inv (checkedState w rest s) :=
  { configure_inv h hidle (w.getLsbD 2) (w.getLsbD 1) s.widthA s.widthB s.heightA s.heightB none rest with
    done_alone := (nomatch ·)
    error_code := (nomatch ·)
    no_error_code := fun _ => rfl }

/-- ConfigError between runs, with one of its two codes. -/
theorem raiseConfigError_inv {s : State} {code : BitVec 4} (h : Inv s) (hidle : s.busy = false)
    (hdone : s.done = false) (hcheck : checkConfig s = some code) : Inv (raiseConfigError code s) :=
  { h with
    done_alone := flag_conflict hdone
    error_code := fun _ => by
      rcases (checkConfig_some_iff s code).mp hcheck with ⟨-, hcode⟩ | ⟨-, -, -, hcode⟩
      · exact ⟨hidle, .inl hcode⟩
      · exact ⟨hidle, .inr hcode⟩
    no_error_code := (nomatch ·) }

/-- A run begins at its first sample; one without lines is done at once. -/
theorem beginRun_inv {s : State} (h : Inv s) (hidle : s.busy = false) (hcfg : s.cfgErr = false)
    (hcheck : checkConfig s = none) : Inv (beginRun s) := by
  obtain ⟨hwa, hwb⟩ := (checkConfig_none_iff s).mp hcheck
  obtain ⟨hpending, hheld⟩ := h.idle_quiet hidle
  exact
    { oversample_pos := h.oversample_pos
      pos_lt := segLen_pos 0#3
      sub_lt := h.oversample_pos
      line_le := Nat.zero_le _
      busy_line := fun hbusy => by
        have hlines : runLines s ≠ 0#16 := by simpa using hbusy
        exact Nat.pos_of_ne_zero fun hzero => hlines (BitVec.eq_of_toNat_eq hzero)
      idle_position := fun hnone => by
        have hlines : runLines s = 0#16 := by simpa using hnone
        exact ⟨hlines.symm, rfl, rfl, rfl⟩
      sn_position := by simp [segStart]
      phase_sn := by simp
      done_alone := fun hdone => ⟨by simpa using hdone, hcfg⟩
      error_code := flag_conflict hcfg
      no_error_code := h.no_error_code
      idle_quiet := fun _ => ⟨hpending, hheld⟩
      pending_image := flag_conflict hpending
      held_byte := fun byte hb => absurd (hheld.symm.trans hb) (by simp)
      run_config := fun _ => ⟨hwa, hwb, rfl⟩
      pixels_wf := h.pixels_wf }

/-- A Reset establishes the invariant wherever OVERSAMPLE is legal and the images are in canonical form. -/
theorem resetBlock_inv {s : State} (hos : 1 ≤ s.oversample.toNat) (hwf : memWf s.pixels = true) :
    Inv (resetBlock s) where
  oversample_pos := hos
  pos_lt := segLen_pos 0#3
  sub_lt := hos
  line_le := Nat.le_refl 0
  busy_line := (nomatch ·)
  idle_position _ := ⟨rfl, rfl, rfl, rfl⟩
  sn_position := by simp [segStart]
  phase_sn := by simp
  done_alone := (nomatch ·)
  error_code := (nomatch ·)
  no_error_code _ := rfl
  idle_quiet _ := ⟨rfl, rfl⟩
  pending_image := (nomatch ·)
  held_byte _ hheld := nomatch hheld
  run_config := (nomatch ·)
  pixels_wf := hwf

/-! ## The obligations -/

/-- Settles O46: R41's list, read off the reset state. -/
theorem resetValues : Obligations.ResetValues :=
  ⟨rfl, rfl, rfl, rfl, rfl, rfl, rfl, rfl, rfl, rfl, rfl, rfl, rfl, rfl, rfl, rfl, rfl, rfl, rfl, rfl⟩

/-- Settles O48: the reset state is what a Reset leaves of it, with the default OVERSAMPLE and black images. -/
theorem invariantHoldsAtReset : Obligations.InvariantHoldsAtReset :=
  resetBlock_inv (s := State.reset) (by decide) reset_pixels_wf

/-- Settles O49, effect by effect: a SampleStep's slot goes stage by stage (`workSample_inv`), and every other effect
leaves the position of a run alone or sets it to its start. -/
theorem invariantIsKeptByEveryStep : Obligations.InvariantIsKeptByEveryStep := by
  intro s t h hstep
  cases stepEffect_of_step hstep with
  | quiet hwf => exact { h with pixels_wf := hwf h.pixels_wf }
  | configure hidle => exact configure_inv h hidle _ _ _ _ _ _ _ _
  | startRejected w rest code hstart hcheck =>
    obtain ⟨-, hidle, -⟩ := hstart
    exact raiseConfigError_inv (checkedState_inv h hidle w rest) hidle rfl hcheck
  | startAccepted w rest hstart hcheck =>
    obtain ⟨-, hidle, -⟩ := hstart
    exact beginRun_inv (checkedState_inv h hidle w rest) hidle rfl hcheck
  | sample inputs hbusy => exact workSample_inv { h with } rfl hbusy
  | reset => exact resetBlock_inv h.oversample_pos h.pixels_wf

end Sys2Proof.Machine
end

section
/-! Accesses to unmapped and misaligned offsets (spec/20_memory.md R45, R46, spec/44_host_commands.md R132). -/

namespace Sys2Proof.Machine

/-- SEGDESC[0..7] are mapped: the word-aligned offsets 0x40 to 0x5C (spec/30_encoding.md R74). -/
theorem mappedOffset_of_isSegdescOffset {addr : BitVec 8} (h : isSegdescOffset addr = true) :
    mappedOffset addr = true := by
  have hlt := addr.isLt
  simp only [isSegdescOffset, Bool.and_eq_true, beq_iff_eq, BitVec.toNat_eq, BitVec.extractLsb'_toNat,
    Nat.shiftRight_eq_div_pow, BitVec.toNat_ofNat] at h
  obtain ⟨hhigh, hlow⟩ := h
  simp only [mappedOffset, Bool.and_eq_true, Bool.or_eq_true, beq_iff_eq, decide_eq_true_eq]
  omega

theorem isSegdescOffset_of_unmapped {addr : BitVec 8} (h : mappedOffset addr = false) :
    isSegdescOffset addr = false :=
  Bool.eq_false_iff.mpr fun hseg => flag_conflict h (mappedOffset_of_isSegdescOffset hseg)

/-- No register's line of the selector table matches an unmapped read. -/
theorem decodeRead_unmapped {addr : BitVec 8} (h : mappedOffset addr = false) :
    decodeRead addr = .rdUnmapped addr := by
  unfold decodeRead
  iterate 12 rw [if_neg (by rintro rfl; exact flag_conflict h rfl)]
  rw [isSegdescOffset_of_unmapped h]
  rfl

/-- No register's line of the selector table matches an unmapped write. -/
theorem decodeWrite_unmapped {addr : BitVec 8} (h : mappedOffset addr = false) (w : Word) :
    decodeWrite addr w = .wrUnmapped addr w := by
  unfold decodeWrite
  iterate 12 rw [if_neg (by rintro rfl; exact flag_conflict h rfl)]
  rw [isSegdescOffset_of_unmapped h]
  rfl

/-- The unmapped offsets as R45 lists them: misaligned, in 0x30..0x3F, or above 0x5C. -/
theorem mappedOffset_eq_false {addr : BitVec 8}
    (h : addr.toNat % 4 ≠ 0 ∨ (0x2C < addr.toNat ∧ addr.toNat < 0x40) ∨ 0x5C < addr.toNat) :
    mappedOffset addr = false := by
  refine Bool.eq_false_iff.mpr fun hmapped => ?_
  simp only [mappedOffset, Bool.and_eq_true, Bool.or_eq_true, beq_iff_eq, decide_eq_true_eq] at hmapped
  omega

/-- Settles O18: an unmapped offset reaches the last line of the selector table, whose two operations answer 0 and
change nothing. -/
theorem unmappedOffsetsAreInert : Obligations.UnmappedOffsetsAreInert := by
  intro addr haddr
  have hunmapped := mappedOffset_eq_false haddr
  refine ⟨⟨fun w => ?_, fun s => rfl⟩, fun w => ⟨?_, fun s => rfl⟩⟩
  · exact (decode_hb_eq_instr_iff _ _).mpr (decodeRead_unmapped hunmapped)
  · exact (decode_hb_eq_instr_iff _ _).mpr (decodeWrite_unmapped hunmapped w)

end Sys2Proof.Machine
end

section
/-! A pixel that changes (spec/20_memory.md R56, spec/70_reset_and_hazards.md R153; logs 2, 7). -/

namespace Sys2Proof.Machine

/-- A write of the byte that a pixel holds already is no change. -/
theorem changePixel_same {p : PixRequest} {byte : Byte} {s : State} (h : pixelAt s p = byte) :
    changePixel p byte s = s := by
  simp [changePixel, h]

theorem changePixel_differs {p : PixRequest} {byte : Byte} {s : State} (hx : p.x.toNat < imageWidth)
    (h : pixelAt s p ≠ byte) :
    changePixel p byte s =
      { s with
        pixels := memWrite s.pixels (pixelAddr p) byte
        changed := if s.busy && !s.changed.contains (pixelAddr p) then pixelAddr p :: s.changed else s.changed } := by
  simp [changePixel, h, Nat.not_le.mpr hx]

/-- A change is read back at its pixel, and every other pixel reads as before. -/
theorem pixelAt_changePixel {p : PixRequest} {byte : Byte} {s : State} (hwf : memWf s.pixels = true)
    (hx : p.x.toNat < imageWidth) (q : PixRequest) :
    pixelAt (changePixel p byte s) q = if q = p then byte else pixelAt s q := by
  by_cases hsame : pixelAt s p = byte
  · rw [changePixel_same hsame]
    split_ifs with hq
    · rw [hq, hsame]
    · rfl
  · rw [changePixel_differs hx hsame]
    have haddr : pixelAddr q = pixelAddr p ↔ q = p := ⟨pixelAddr_injective, congrArg pixelAddr⟩
    simp only [pixelAt, memRead_memWrite _ _ _ hwf, haddr]

/-- A change marks its pixel while BUSY = 1, if the byte differs, and no other. -/
theorem mem_changed_changePixel {p : PixRequest} {byte : Byte} {s : State} (hx : p.x.toNat < imageWidth) (a : Nat) :
    a ∈ (changePixel p byte s).changed ↔
      a ∈ s.changed ∨ (s.busy = true ∧ pixelAt s p ≠ byte ∧ a = pixelAddr p) := by
  by_cases hsame : pixelAt s p = byte
  · simp [changePixel_same hsame, hsame]
  · rw [changePixel_differs hx hsame]
    dsimp only
    split_ifs with hmark
    · obtain ⟨hb, -⟩ := Bool.and_eq_true_iff.mp hmark
      simp [hb, hsame, or_comm]
    · have hmarked : s.busy = true → pixelAddr p ∈ s.changed := by simpa using hmark
      constructor
      · exact .inl
      · rintro (ha | ⟨hb, -, rfl⟩)
        · exact ha
        · exact hmarked hb

/-- Settles O13: the step is the pixel's change, which a write to the image memory describes. -/
theorem imageChangeWritesOnePixel : Obligations.ImageChangeWritesOnePixel := by
  intro s p byte rest hwf hx hin
  have hread := pixelAt_changePixel (byte := byte) (s := { s with inputs := rest }) hwf hx
  refine ⟨changePixel p byte { s with inputs := rest }, step_event_leave hin rfl, ?_, fun q hq => ?_, ?_, ?_, ?_⟩
  · rw [hread, if_pos rfl]
  · rw [hread, if_neg hq]
    rfl
  · exact changePixel_wf p byte (s := { s with inputs := rest }) hwf
  · exact mem_changed_changePixel hx
  · exact changePixel_eq p byte _

end Sys2Proof.Machine
end

section
/-! The waits of a SampleStep (spec/20_memory.md R50 to R53): a silent pixel source, an answered request, a silent sink,
and the requests the block makes. -/

namespace Sys2Proof.Machine

/-! ## The segment operations -/

/-- Each segment operation is the SampleStep at its descriptor (spec/40_line_framer.md R84 to R91). -/
theorem exec_segmentOp {p : Instr × Descriptor} (hp : p ∈ segmentOps) (s : State) : exec p.1 s = sampleStep p.2 s := by
  simp only [segmentOps, List.mem_cons, List.not_mem_nil, or_false] at hp
  rcases hp with rfl | rfl | rfl | rfl | rfl | rfl | rfl | rfl <;> rfl

/-- An enabled segment operation does one slot's work. -/
theorem exec_segmentOp_enabled {p : Instr × Descriptor} (hp : p ∈ segmentOps) {s : State} (h : Enabled p.2 s) :
    exec p.1 s = .next (workSample p.2 s) := by
  obtain ⟨hbusy, hphase, hpos⟩ := h
  rw [exec_segmentOp hp, sampleStep_enabled hbusy hphase hpos]

/-- The IMAGE operations are 909 symbols long (spec/30_encoding.md R70). -/
theorem segmentOp_image_len : ∀ p ∈ segmentOps, p.2.op = .image → p.2.len = 909#10 := by decide

/-! ## One slot's work, wait by wait -/

theorem workSample_held {d : Descriptor} {s : State} {byte : Byte} (ho : s.outHold = some byte) :
    workSample d s = if s.sinkReady then commitSample d byte s else s := by
  rw [← offerSample_some ho]
  simp [workSample, ho]

theorem workSample_silent_source {d : Descriptor} {s : State} (ho : s.outHold = none) (hn : needsPixel d s = true)
    (hq : s.pixelReady = false) : workSample d s = issueRequest d s := by
  simp [workSample, ho, hn, hq]

theorem workSample_answered {d : Descriptor} {s : State} (ho : s.outHold = none) (hn : needsPixel d s = true)
    (hq : s.pixelReady = true) :
    workSample d s = offerSample d (holdSample (takeResponse d (issueRequest d s))) := by
  simp [workSample, ho, hn, hq]

theorem workSample_no_pixel {d : Descriptor} {s : State} (ho : s.outHold = none) (hn : needsPixel d s = false) :
    workSample d s = offerSample d (holdSample (loadSymbol d s)) := by
  simp [workSample, ho, hn]

theorem issueRequest_pending {d : Descriptor} {s : State} (h : s.pixPending = true) : issueRequest d s = s := by
  simp [issueRequest, h]

theorem issueRequest_new {d : Descriptor} {s : State} (h : s.pixPending = false) :
    issueRequest d s = { s with pixPending := true, requests := s.requests ++ [pixelRequest d s] } := by
  simp [issueRequest, h]

/-- A silent sink leaves a byte where it is. -/
theorem offerSample_silent {d : Descriptor} {s : State} (h : s.sinkReady = false) : offerSample d s = s := by
  cases ho : s.outHold with
  | none => exact offerSample_none ho
  | some byte => rw [offerSample_some ho, if_neg (by simp [h])]

/-- What an answered request latches, whether it goes out now or is outstanding. -/
theorem takeResponse_issueRequest (d : Descriptor) (s : State) :
    takeResponse d (issueRequest d s) =
      { s with
        pixPending := false
        sym :=
          if pixelAddr (pixelRequest d s) ∈ s.changed then Config.freePixel s.freeNext
          else pixelAt s (pixelRequest d s)
        requests := if s.pixPending then s.requests else s.requests ++ [pixelRequest d s]
        freeNext := if pixelAddr (pixelRequest d s) ∈ s.changed then s.freeNext + 1 else s.freeNext } := by
  have hrequest : pixelRequest d (issueRequest d s) = pixelRequest d s := by simp [pixelRequest, srcChannel]
  have hpixel : pixelAt (issueRequest d s) (pixelRequest d s) = pixelAt s (pixelRequest d s) := by simp [pixelAt]
  unfold takeResponse
  rw [hrequest, hpixel, issueRequest_changed]
  cases hp : s.pixPending with
  | false =>
    rw [issueRequest_new hp]
    by_cases hmarked : pixelAddr (pixelRequest d s) ∈ s.changed <;> simp [hmarked]
  | true =>
    rw [issueRequest_pending hp]
    by_cases hmarked : pixelAddr (pixelRequest d s) ∈ s.changed <;> simp [hmarked]

/-- SYM is loaded at the first sample of a symbol, and kept for the others (spec/40_line_framer.md R95). -/
theorem loadSymbol_eq (d : Descriptor) (s : State) :
    loadSymbol d s = { s with sym := if s.sub = 0#5 then fixedSymbol d s else s.sym } := by
  unfold loadSymbol
  split_ifs <;> rfl

/-- The acceptance of Q(SYM, PHASE) with nothing held before it is what afterSample says. -/
theorem commitSample_eq_afterSample {d : Descriptor} {s : State} (ho : s.outHold = none) (v : Byte) :
    commitSample d (modulatorByte s.oversample v s.phase) { s with sym := v } = afterSample d v s := by
  unfold commitSample afterSample
  rw [← ho]

/-! ## The requests of a slot -/

/-- A slot that logs a request needs a pixel, and logs the request of its position. -/
theorem workSample_requests {d : Descriptor} {s : State} (h : (workSample d s).requests ≠ s.requests) :
    needsPixel d s = true ∧ (workSample d s).requests = s.requests ++ [pixelRequest d s] := by
  have hissue : (issueRequest d s).requests ≠ s.requests →
      (issueRequest d s).requests = s.requests ++ [pixelRequest d s] := by
    cases hp : s.pixPending with
    | false => simp [issueRequest_new hp]
    | true => simp [issueRequest_pending hp]
  rcases workSample_cases d s with ⟨byte, -, hw⟩ | ⟨-, hn, -, hw⟩ | ⟨-, hn, -, hw⟩ | ⟨-, -, hw⟩ <;> rw [hw] at h ⊢
  · split_ifs at h <;> simp at h
  · exact ⟨hn, hissue h⟩
  · simp only [offerSample_requests, holdSample_requests, takeResponse_requests] at h ⊢
    exact ⟨hn, hissue h⟩
  · simp at h

/-- A position that needs a pixel is the first sample of an IMAGE symbol below the effective height
(spec/40_line_framer.md R95). -/
theorem needsPixel_iff (d : Descriptor) (s : State) :
    needsPixel d s = true ↔ s.sub = 0#5 ∧ d.op = .image ∧ s.line.toNat < (effHeight s d.ch).toNat := by
  simp [needsPixel, inImage]

/-! ## The obligations -/

/-- Settles O31: the slot is `issueRequest` and no more. -/
theorem silentPixelSourceStallsTheStep : Obligations.SilentPixelSourceStallsTheStep := by
  intro p hp s henabled ho hn hq
  rw [exec_segmentOp_enabled hp henabled, workSample_silent_source ho hn hq]
  exact ⟨fun hnew => congrArg _ (issueRequest_new hnew), fun hpending => congrArg _ (issueRequest_pending hpending)⟩

/-- Settles O32: the answer to an outstanding request is latched, held and accepted in one slot. -/
theorem answeredRequestCompletesTheStep : Obligations.AnsweredRequestCompletesTheStep := by
  intro p hp s ⟨⟨hbusy, hphase, hpos⟩, ho, hsink⟩ hn hq hpending hunchanged
  rw [exec_segmentOp hp, sampleStep_pixel hbusy hphase hpos ho hsink hq hn, takeResponse_issueRequest]
  simp only [hpending, hunchanged, if_true, if_false]
  exact congrArg _ (commitSample_eq_afterSample (s := { s with pixPending := false }) ho _)

/-- Settles O33: a held byte only meets the sink, and a slot without one loads SYM and stops at the silent sink. -/
theorem heldByteWaitsForTheSink : Obligations.HeldByteWaitsForTheSink := by
  intro p hp s henabled
  rw [exec_segmentOp_enabled hp henabled]
  refine ⟨fun byte ho hsink => ?_, fun byte ho hsink => ?_, fun ho hsink hn => ?_, fun ho hsink hn hq => ?_⟩
  · rw [workSample_held ho, if_neg (by simp [hsink])]
  · rw [workSample_held ho, if_pos hsink]
    rfl
  · rw [workSample_no_pixel ho hn, offerSample_silent (by simpa using hsink), loadSymbol_eq]
    rfl
  · rw [workSample_answered ho hn hq, offerSample_silent (by simpa using hsink), takeResponse_issueRequest]
    rfl

/-- Settles O37: a request goes out only where the position needs a pixel, and the effective height is the height of the
source channel (spec/40_line_framer.md R83). -/
theorem pixelRequestsLieInTheContract : Obligations.PixelRequestsLieInTheContract := by
  intro p hp s t hexec hnew
  rw [exec_segmentOp hp] at hexec
  rcases sampleStep_next hexec with ⟨-, rfl⟩ | ⟨-, -, hpos, rfl⟩
  · exact absurd rfl hnew
  · obtain ⟨hn, hrequest⟩ := workSample_requests hnew
    obtain ⟨hsub, hop, hline⟩ := (needsPixel_iff _ _).mp hn
    have hlen := segmentOp_image_len p hp hop
    refine ⟨pixelRequest p.2 s, hrequest, ?_, rfl, rfl, ?_, fun hsingle => ?_, hsub, hop⟩
    · rw [hlen] at hpos
      exact hpos
    · cases hch : p.2.ch <;> cases hsingle : s.single <;>
        simpa [pixelRequest, srcChannel, effHeight, hch, hsingle] using hline
    · cases hch : p.2.ch <;> simp [pixelRequest, srcChannel, hch, hsingle]

end Sys2Proof.Machine
end

section
/-! Runs (spec/00_scope.md R11): a machine of the invariant answers every step, a step takes one input, and inputs
without Reset and START leave a run going. -/

namespace Sys2Proof.Machine

/-! ## The invariant answers every step -/

/-- PHASE is a multiple of gcd(15, M) below M (spec/41_carrier_modulator.md R100). -/
theorem phaseReachable_of_inv {s : State} (h : Inv s) : phaseReachable s.oversample s.phase = true := by
  have hos := h.oversample_pos
  have hpos : 0 < phaseModulus s.oversample := by
    simp only [phaseModulus]
    omega
  have hdvd : Nat.gcd phaseStep (phaseModulus s.oversample) ∣
      phaseStep * s.sn.toNat % phaseModulus s.oversample :=
    (Nat.dvd_mod_iff (Nat.gcd_dvd_right _ _)).mpr ((Nat.gcd_dvd_left _ _).mul_right _)
  simp only [phaseReachable, h.phase_sn, Bool.and_eq_true, decide_eq_true_eq, beq_iff_eq]
  exact ⟨Nat.mod_lt _ hpos, Nat.mod_eq_zero_of_dvd hdvd⟩

theorem sampleStep_answers {s : State} (h : Inv s) (hb : s.busy = true) :
    sampleStep (segDescriptor s.seg) s = .next (workSample (segDescriptor s.seg) s) :=
  sampleStep_enabled hb (phaseReachable_of_inv h) (by rw [segDescriptor_len]; exact h.pos_lt)

theorem slot_answers {s : State} (h : Inv s) (inputs : List Input) :
    ∃ t, (if s.busy then sampleStep (segDescriptor s.seg) { s with inputs := inputs }
      else .next { s with inputs := inputs }) = .next t := by
  split_ifs with hb
  · exact ⟨_, sampleStep_answers (s := { s with inputs := inputs }) { h with } hb⟩
  · exact ⟨_, rfl⟩

theorem step_answers {s : State} (h : Inv s) : ∃ t, step s = .next t := by
  rcases step_cases s with ⟨-, hs⟩ | ⟨rest, ⟨r, -, hs⟩ | ⟨-, hs⟩ | ⟨_, -, hs⟩ | ⟨_, -, hs⟩ | ⟨_, _, -, hs⟩ |
    ⟨_, -, hs⟩ | ⟨_, -, hs⟩⟩ <;> rw [hs]
  · exact slot_answers h s.inputs
  · rcases exec_decodeRequest r { s with inputs := rest } with ⟨-, v, hr⟩ | ⟨-, ⟨-, hr⟩ | ⟨f, -, hr⟩ | hr⟩ <;>
      exact ⟨_, hr⟩
  · exact slot_answers h rest
  all_goals exact ⟨_, rfl⟩

/-! ## Many steps -/

theorem run_succ {M : Host.Core} {s u : M.State} (h : M.step s = .next u) (k : Nat) :
    M.run (k + 1) s = M.run k u := by
  rw [Host.Core.run, h]

/-- If a step leads from `P k` to `P (k + 1)` in states of the invariant, any number of steps answers such a state. -/
theorem run_answers {P : Nat → State → Prop}
    (hstep : ∀ k s t, Inv s → P k s → step s = .next t → P (k + 1) t) (n : Nat) {k : Nat} {s : State} (hinv : Inv s)
    (h : P k s) : ∃ t, Host.Core.run Sys2Proof.core n s = .next t ∧ Inv t ∧ P (k + n) t := by
  induction n generalizing k s with
  | zero => exact ⟨s, rfl, hinv, h⟩
  | succ n ih =>
    obtain ⟨u, hu⟩ := step_answers hinv
    obtain ⟨t, ht, htinv, hPt⟩ := ih (invariantIsKeptByEveryStep s u hinv hu) (hstep k s u hinv h hu)
    exact ⟨t, (run_succ (M := Sys2Proof.core) hu n).trans ht, htinv, by rwa [← Nat.add_right_comm] at hPt⟩

/-! ## The inputs and the images over one step -/

/-- The images stay; the marks stay or, at a START, are emptied (log 7); these inputs remain. -/
def KeepsImages (inputs : List Input) (s t : State) : Prop :=
  t.inputs = inputs ∧ t.pixels = s.pixels ∧ (t.changed = s.changed ∨ t.changed = [])

theorem writeCtrl_keepsImages (w : Word) (s : State) : KeepsImages s.inputs s (writeCtrl w s) := by
  rcases writeCtrl_cases w s with ⟨-, hw⟩ | ⟨-, -, hw⟩ | ⟨-, -, hw⟩ <;> rw [hw]
  · exact ⟨rfl, rfl, .inl rfl⟩
  · exact ⟨rfl, rfl, .inl rfl⟩
  · rcases startRun_cases { acknowledge { s with irqEn := w.getLsbD 2 } with single := w.getLsbD 1 } with
      ⟨code, -, ht⟩ | ⟨-, ht⟩ <;> rw [ht]
    · exact ⟨rfl, rfl, .inl rfl⟩
    · exact ⟨rfl, rfl, .inr rfl⟩

theorem writeIdle_keepsImages {w : Word} {f : State → State} (hf : isConfigUpdate w f) (s : State) :
    KeepsImages s.inputs s (writeIdle f s) := by
  unfold writeIdle
  split_ifs
  · exact ⟨rfl, rfl, .inl rfl⟩
  · rcases hf with rfl | rfl | rfl | rfl <;> exact ⟨rfl, rfl, .inl rfl⟩

theorem host_keepsImages {r : HbRequest} {s t : State} (h : exec (decodeRequest r) s = .next t) :
    KeepsImages s.inputs s t := by
  rcases exec_decodeRequest r s with ⟨-, v, hr⟩ | ⟨-, ⟨-, hr⟩ | ⟨f, hf, hr⟩ | hr⟩ <;>
    obtain rfl := Host.Outcome.next.inj (hr.symm.trans h)
  · exact ⟨rfl, rfl, .inl rfl⟩
  · exact writeCtrl_keepsImages _ s
  · exact writeIdle_keepsImages hf s
  · exact ⟨rfl, rfl, .inl rfl⟩

theorem slot_keepsImages {d : Descriptor} {busy : Bool} {s t : State} (inputs : List Input)
    (h : (if busy then sampleStep d { s with inputs := inputs } else .next { s with inputs := inputs }) = .next t) :
    KeepsImages inputs s t := by
  split_ifs at h
  · rcases sampleStep_next h with ⟨-, rfl⟩ | ⟨-, -, -, rfl⟩
    · exact ⟨rfl, rfl, .inl rfl⟩
    · exact ⟨by simp, by simp, .inl (by simp)⟩
  · cases h
    exact ⟨rfl, rfl, .inl rfl⟩

/-- A step without Reset takes one input; only a pixel's change writes the images. -/
theorem step_inputs_images {s t : State} (h : step s = .next t) :
    (∃ same rest, s.inputs = .reset same :: rest) ∨
    (∃ p byte rest, s.inputs = .event (.imageChange p byte) :: rest ∧ t.inputs = rest) ∨
    KeepsImages s.inputs.tail s t := by
  rcases step_cases s with ⟨hin, hs⟩ | ⟨rest, ⟨r, hin, hs⟩ | ⟨hin, hs⟩ | ⟨_, hin, hs⟩ | ⟨_, hin, hs⟩ |
    ⟨p, byte, hin, hs⟩ | ⟨_, hin, hs⟩ | ⟨same, hin, -⟩⟩
  · have hslot := slot_keepsImages s.inputs (hs.symm.trans h)
    rw [hin] at hslot ⊢
    exact .inr (.inr hslot)
  · rw [hin]
    exact .inr (.inr (host_keepsImages (hs.symm.trans h)))
  · rw [hin]
    exact .inr (.inr (slot_keepsImages rest (hs.symm.trans h)))
  · obtain rfl := Host.Outcome.next.inj (hs.symm.trans h)
    rw [hin]
    exact .inr (.inr ⟨rfl, rfl, .inl rfl⟩)
  · obtain rfl := Host.Outcome.next.inj (hs.symm.trans h)
    rw [hin]
    exact .inr (.inr ⟨rfl, rfl, .inl rfl⟩)
  · obtain rfl := Host.Outcome.next.inj (hs.symm.trans h)
    exact .inr (.inl ⟨p, byte, rest, hin, by rw [changePixel_eq]⟩)
  · obtain rfl := Host.Outcome.next.inj (hs.symm.trans h)
    rw [hin]
    exact .inr (.inr ⟨rfl, rfl, .inl rfl⟩)
  · exact .inl ⟨same, rest, hin⟩

/-! ## Steps that leave a run going -/

theorem no_reset_of_continuesRun {s : State} (hc : ∀ x ∈ s.inputs, continuesRun x) {same : Option Event}
    {rest : List Input} (h : s.inputs = .reset same :: rest) : False :=
  hc (.reset same) (by simp [h])

theorem no_start_of_continuesRun {s : State} (hc : ∀ x ∈ s.inputs, continuesRun x) {w : Word} {rest : List Input}
    (h : TakesStart w rest s) : False := by
  obtain ⟨hin, -, hgo⟩ := h
  exact flag_conflict (hc (.event (.host ⟨true, 0x00#8, w⟩)) (by simp [hin]) rfl rfl) hgo

/-- The inputs that remain leave the run going too. -/
theorem continuesRun_step {s t : State} (hc : ∀ x ∈ s.inputs, continuesRun x) (h : step s = .next t) :
    ∀ x ∈ t.inputs, continuesRun x := by
  rcases step_inputs_images h with ⟨same, rest, hin⟩ | ⟨p, byte, rest, hin, ht⟩ | ⟨ht, -, -⟩
  · exact (no_reset_of_continuesRun hc hin).elim
  · exact fun x hx => hc x (by rw [hin, ← ht]; exact List.mem_cons_of_mem _ hx)
  · exact fun x hx => hc x (List.mem_of_mem_tail (by rwa [ht] at hx))

/-- What a step that is no SampleStep leaves of a run. -/
structure KeepsRun (s t : State) : Prop where
  oversample : t.oversample = s.oversample
  busy : t.busy = s.busy
  done : t.done = s.done
  cfgErr : t.cfgErr = s.cfgErr
  nlines : t.nlines = s.nlines
  line : t.line = s.line
  seg : t.seg = s.seg
  pos : t.pos = s.pos
  sub : t.sub = s.sub
  sn : t.sn = s.sn
  sym : t.sym = s.sym
  outHold : t.outHold = s.outHold
  stream : t.stream = s.stream
  config : s.busy = true → t.single = s.single ∧ t.heightA = s.heightA ∧ t.heightB = s.heightB

/-- Without Reset and START a step keeps the run, or is one slot of its SampleStep. -/
theorem continuing_step {s t : State} (hc : ∀ x ∈ s.inputs, continuesRun x) (h : step s = .next t) :
    KeepsRun s t ∨
    (s.busy = true ∧ ∃ inputs, t = workSample (segDescriptor s.seg) { s with inputs := inputs }) := by
  cases stepEffect_of_step h with
  | quiet => exact .inl ⟨rfl, rfl, rfl, rfl, rfl, rfl, rfl, rfl, rfl, rfl, rfl, rfl, rfl, fun _ => ⟨rfl, rfl, rfl⟩⟩
  | configure hidle =>
    exact .inl ⟨rfl, rfl, rfl, rfl, rfl, rfl, rfl, rfl, rfl, rfl, rfl, rfl, rfl, flag_conflict hidle⟩
  | startRejected w rest code hstart => exact (no_start_of_continuesRun hc hstart).elim
  | startAccepted w rest hstart => exact (no_start_of_continuesRun hc hstart).elim
  | sample inputs hbusy => exact .inr ⟨hbusy, inputs, rfl⟩
  | reset same rest inputs hin => exact (no_reset_of_continuesRun hc hin).elim

end Sys2Proof.Machine
end

section
/-! The signal of a run (spec/40_line_framer.md R81, R96): the bytes accepted since START are its first SN bytes. -/

namespace Sys2Proof.Machine

/-! ## The signal at the position -/

/-- What the symbols of a run are computed from. -/
structure SameSource (s t : State) : Prop where
  oversample : t.oversample = s.oversample
  single : t.single = s.single
  heightA : t.heightA = s.heightA
  heightB : t.heightB = s.heightB
  pixels : t.pixels = s.pixels

/-- A symbol depends on its source, LINE and POS only. -/
theorem symbolOf_congr {d : Descriptor} {s t : State} (h : SameSource s t) (hline : t.line = s.line)
    (hpos : t.pos = s.pos) : symbolOf d t = symbolOf d s := by
  obtain ⟨-, hsingle, hheightA, hheightB, hpixels⟩ := h
  have hheight : effHeight t d.ch = effHeight s d.ch := by
    cases d.ch <;> simp [effHeight, hsingle, hheightA, hheightB]
  have hrequest : pixelRequest d t = pixelRequest d s := by
    simp only [pixelRequest, hline, hpos]
    cases d.ch <;> simp [srcChannel, hsingle]
  have hfixed : fixedSymbol d t = fixedSymbol d s := by
    cases hop : d.op <;> simp [fixedSymbol, hop, hline, hpos]
  have himage : inImage d t = inImage d s := by simp only [inImage, hheight, hline]
  simp only [symbolOf, pixelAt, himage, hrequest, hfixed, hpixels]

/-- The segment of an offset is the one it lies in (spec/40_line_framer.md R96). -/
theorem segmentAt_segStart_add {n : BitVec 3} {p : Nat} (h : p < segLen n) : segmentAt (segStart n + p) = n := by
  have hn : n = 0#3 ∨ n = 1#3 ∨ n = 2#3 ∨ n = 3#3 ∨ n = 4#3 ∨ n = 5#3 ∨ n = 6#3 ∨ n = 7#3 := by
    clear h; revert n; decide
  rcases hn with rfl | rfl | rfl | rfl | rfl | rfl | rfl | rfl <;>
    simp [segLen, segDesc] at h <;> simp (disch := omega) [segmentAt, segStart, if_pos, if_neg]

/-- The number of symbols before the position. -/
theorem sn_div_oversample {s : State} (h : Inv s) :
    s.sn.toNat / s.oversample.toNat = s.line.toNat * lineSymbols + (segStart s.seg + s.pos.toNat) := by
  have hos : 0 < s.oversample.toNat := h.oversample_pos
  rw [h.sn_position, Nat.add_comm, Nat.add_mul_div_right _ _ hos, Nat.div_eq_of_lt h.sub_lt, Nat.zero_add,
    Nat.add_assoc]

theorem signalSymbol_position {s t : State} (h : Inv t) (hsource : SameSource s t) :
    signalSymbol s t.line.toNat (segStart t.seg + t.pos.toNat) = symbolOf (segDescriptor t.seg) t := by
  unfold signalSymbol
  rw [segmentAt_segStart_add h.pos_lt]
  simp only [Nat.add_sub_cancel_left, BitVec.ofNat_toNat, BitVec.setWidth_eq]
  obtain ⟨hos, hsingle, hheightA, hheightB, hpixels⟩ := hsource
  exact symbolOf_congr ⟨hos.symm, hsingle.symm, hheightA.symm, hheightB.symm, hpixels.symm⟩ rfl rfl

/-- The signal's byte of sample SN is Q of the position's symbol at PHASE. -/
theorem signalByte_sn {s t : State} (h : Inv t) (hsource : SameSource s t) :
    signalByte s t.sn.toNat = modulatorByte t.oversample (symbolOf (segDescriptor t.seg) t) t.phase := by
  have hoffset : segStart t.seg + t.pos.toNat < lineSymbols := by
    have := segStart_add_segLen_le t.seg
    have := h.pos_lt
    omega
  have hline : (t.line.toNat * lineSymbols + (segStart t.seg + t.pos.toNat)) / lineSymbols = t.line.toNat := by
    rw [Nat.add_comm, Nat.add_mul_div_right _ _ (by decide), Nat.div_eq_of_lt hoffset, Nat.zero_add]
  have hmod : (t.line.toNat * lineSymbols + (segStart t.seg + t.pos.toNat)) % lineSymbols =
      segStart t.seg + t.pos.toNat := by
    rw [Nat.mul_add_mod_self_right, Nat.mod_eq_of_lt hoffset]
  unfold signalByte
  dsimp only
  rw [← hsource.oversample, sn_div_oversample h, hline, hmod, signalSymbol_position h hsource, ← h.phase_sn,
    BitVec.ofNat_toNat, BitVec.setWidth_eq]

/-! ## One slot of a run -/

/-- SYM is the position's symbol once it is loaded: after the first sample of the symbol, or with a byte held. -/
def SymbolLatched (s : State) : Prop :=
  s.sub ≠ 0#5 ∨ s.outHold ≠ none → s.sym = symbolOf (segDescriptor s.seg) s

/-- The slot's state before the acceptance: SYM is `v`, and the byte of it is held. -/
def holding (v : Byte) (requests : List PixRequest) (s : State) : State :=
  { s with
    sym := v, outHold := some (modulatorByte s.oversample v s.phase), pixPending := false, requests := requests }

/-- A slot waits for the pixel source at the first sample of a symbol, or offers the byte of the position's symbol. -/
theorem workSample_symbolOf {d : Descriptor} {s : State} (h : Inv s) (hd : d = segDescriptor s.seg)
    (hunchanged : s.changed = []) (hlatched : SymbolLatched s) :
    (s.outHold = none ∧ s.sub = 0#5 ∧ workSample d s = issueRequest d s) ∨
    ∃ requests, workSample d s = offerSample d (holding (symbolOf d s) requests s) := by
  subst hd
  rcases workSample_cases (segDescriptor s.seg) s with ⟨byte, ho, hw⟩ | ⟨ho, hn, -, hw⟩ | ⟨ho, hn, -, hw⟩ |
    ⟨ho, hn, hw⟩
  · refine .inr ⟨s.requests, ?_⟩
    have hheld : holding (symbolOf (segDescriptor s.seg) s) s.requests s = s := by
      rw [← hlatched (.inr (by simp [ho])), holding, ← h.held_byte byte ho, ← ho, ← pixPending_of_outHold h ho]
    rw [hheld, hw, ← offerSample_some ho]
  · obtain ⟨hsub, -⟩ := (needsPixel_iff _ _).mp hn
    exact .inl ⟨ho, hsub, hw⟩
  · obtain ⟨-, himage⟩ : s.sub = 0#5 ∧ inImage (segDescriptor s.seg) s = true := by simpa [needsPixel] using hn
    refine .inr ⟨(issueRequest (segDescriptor s.seg) s).requests, ?_⟩
    rw [hw, takeResponse_issueRequest]
    simp [holding, holdSample, symbolOf, himage, hunchanged, issueRequest, apply_ite]
  · have hsym : (if s.sub = 0#5 then fixedSymbol (segDescriptor s.seg) s else s.sym) =
        symbolOf (segDescriptor s.seg) s := by
      split_ifs with hsub
      · have himage : inImage (segDescriptor s.seg) s = false := by simpa [needsPixel, hsub] using hn
        simp [symbolOf, himage]
      · exact hlatched (.inl hsub)
    refine .inr ⟨s.requests, ?_⟩
    rw [hw, loadSymbol_eq, hsym, holding, ← pixPending_of_not_needsPixel h hn]
    rfl

/-- The advance within a symbol keeps the symbol's place. -/
theorem advance_within_symbol {d : Descriptor} {s : State} (h : (advance d s).sub ≠ 0#5) :
    (advance d s).line = s.line ∧ (advance d s).seg = s.seg ∧ (advance d s).pos = s.pos := by
  rcases advance_cases d s with ⟨-, ha⟩ | ⟨-, -, ha⟩ | ⟨-, -, -, ha⟩ | ⟨-, -, -, -, ha⟩ | ⟨-, -, -, -, ha⟩ <;>
    rw [ha] at h ⊢
  · exact ⟨rfl, rfl, rfl⟩
  all_goals exact absurd rfl h

/-- The symbol stays latched for its later samples. -/
theorem commitSample_symbolLatched {s : State} {byte : Byte} (h : s.sym = symbolOf (segDescriptor s.seg) s) :
    SymbolLatched (commitSample (segDescriptor s.seg) byte s) := by
  intro hloaded
  have hsub : (commitSample (segDescriptor s.seg) byte s).sub ≠ 0#5 := hloaded.resolve_right (by simp)
  obtain ⟨hline, hseg, hpos⟩ : (commitSample (segDescriptor s.seg) byte s).line = s.line ∧
      (commitSample (segDescriptor s.seg) byte s).seg = s.seg ∧
      (commitSample (segDescriptor s.seg) byte s).pos = s.pos := advance_within_symbol hsub
  have hsource : SameSource s (commitSample (segDescriptor s.seg) byte s) := by constructor <;> simp
  rw [commitSample_sym, hseg, symbolOf_congr hsource hline hpos, h]

/-! ## The run's bytes -/

/-- `t` is a state of the run whose first state is `s`, or of the time after it: the bytes accepted since are the first
SN of the signal of `s`. -/
structure EmitsSignal (s t : State) : Prop where
  source : t.busy = true → SameSource s t
  unchanged : t.changed = []
  latched : t.busy = true → SymbolLatched t
  stream : t.stream = s.stream ++ (List.range t.sn.toNat).map (signalByte s)

theorem offerSample_emitsSignal {d : Descriptor} {s t : State} {requests : List PixRequest} (h : EmitsSignal s t)
    (hinv : Inv t) (hb : t.busy = true) (hd : d = segDescriptor t.seg) :
    EmitsSignal s (offerSample d (holding (symbolOf d t) requests t)) := by
  subst hd
  have hsource := h.source hb
  rw [offerSample_some rfl]
  split_ifs
  · refine ⟨fun _ => ?_, ?_, fun _ hloaded => ?_, ?_⟩
    · obtain ⟨hos, hsingle, hheightA, hheightB, hpixels⟩ := hsource
      constructor <;> simpa [holding]
    · simpa [holding] using h.unchanged
    · exact commitSample_symbolLatched (s := holding (symbolOf (segDescriptor t.seg) t) requests t) rfl hloaded
    · rw [commitSample_stream, commitSample_sn]
      simp only [holding]
      rw [sn_succ_toNat hinv hb, List.range_succ, List.map_append, ← List.append_assoc, ← h.stream,
        List.map_singleton, signalByte_sn hinv hsource]
  · exact ⟨fun _ => { hsource with }, h.unchanged, fun _ _ => rfl, h.stream⟩

theorem workSample_emitsSignal {d : Descriptor} {s t : State} (h : EmitsSignal s t) (hinv : Inv t)
    (hb : t.busy = true) (hd : d = segDescriptor t.seg) : EmitsSignal s (workSample d t) := by
  rcases workSample_symbolOf hinv hd h.unchanged (h.latched hb) with ⟨ho, hsub, hw⟩ | ⟨requests, hw⟩ <;> rw [hw]
  · obtain ⟨hos, hsingle, hheightA, hheightB, hpixels⟩ := h.source hb
    refine ⟨fun _ => ?_, by simpa using h.unchanged, fun _ hloaded => ?_, by simpa using h.stream⟩
    · constructor <;> simpa
    · simp [ho, hsub] at hloaded
  · exact offerSample_emitsSignal h hinv hb hd

/-- A step that keeps the run keeps its signal. -/
theorem KeepsRun.emitsSignal {s t u : State} (hkeep : KeepsRun t u) (h : EmitsSignal s t)
    (hpixels : u.pixels = t.pixels) (hunchanged : u.changed = []) : EmitsSignal s u where
  source hb := by
    have hbusy : t.busy = true := hkeep.busy ▸ hb
    obtain ⟨hsingle, hheightA, hheightB⟩ := hkeep.config hbusy
    have hsource := h.source hbusy
    exact ⟨hkeep.oversample.trans hsource.oversample, hsingle.trans hsource.single,
      hheightA.trans hsource.heightA, hheightB.trans hsource.heightB, hpixels.trans hsource.pixels⟩
  unchanged := hunchanged
  latched hb hloaded := by
    have hbusy : t.busy = true := hkeep.busy ▸ hb
    obtain ⟨hsingle, hheightA, hheightB⟩ := hkeep.config hbusy
    rw [hkeep.sym, hkeep.seg,
      symbolOf_congr ⟨hkeep.oversample, hsingle, hheightA, hheightB, hpixels⟩ hkeep.line hkeep.pos]
    exact h.latched hbusy (by rwa [hkeep.sub, hkeep.outHold] at hloaded)
  stream := by rw [hkeep.stream, hkeep.sn, h.stream]

/-- Quiet inputs keep the images and empty marks, and remain quiet. -/
theorem quietInput_step {s t : State} (hq : ∀ x ∈ s.inputs, quietInput x) (h : step s = .next t) :
    (∀ x ∈ t.inputs, quietInput x) ∧ t.pixels = s.pixels ∧ (s.changed = [] → t.changed = []) := by
  rcases step_inputs_images h with ⟨same, rest, hin⟩ | ⟨p, byte, rest, hin, -⟩ | ⟨hinputs, hpixels, hchanged⟩
  · exact (no_reset_of_continuesRun (fun x hx => (hq x hx).left) hin).elim
  · obtain ⟨-, hno⟩ := hq (.event (.imageChange p byte)) (by simp [hin])
    exact absurd rfl (hno p byte)
  · refine ⟨fun x hx => hq x (List.mem_of_mem_tail (by rwa [hinputs] at hx)), hpixels, fun hnone => ?_⟩
    rcases hchanged with hkept | hempty
    · exact hkept.trans hnone
    · exact hempty

theorem step_emitsSignal {s t u : State} (h : EmitsSignal s t) (hinv : Inv t) (hq : ∀ x ∈ t.inputs, quietInput x)
    (hstep : step t = .next u) : EmitsSignal s u := by
  obtain ⟨-, hpixels, hchanged⟩ := quietInput_step hq hstep
  rcases continuing_step (fun x hx => (hq x hx).left) hstep with hkeep | ⟨hb, inputs, rfl⟩
  · exact hkeep.emitsSignal h hpixels (hchanged h.unchanged)
  · exact workSample_emitsSignal (t := { t with inputs := inputs })
      ⟨fun hb => { h.source hb with }, h.unchanged, h.latched, h.stream⟩ { hinv with } hb rfl

/-- At SN = 0 the position is the first sample of a symbol. -/
theorem sub_of_sn_zero {s : State} (h : Inv s) (hsn : s.sn = 0#32) : s.sub = 0#5 := by
  have hposition := h.sn_position
  rw [hsn] at hposition
  exact BitVec.eq_of_toNat_eq (Nat.add_eq_zero_iff.mp hposition.symm).right

/-- Settles O58: the run's first state emits its signal, and every step under quiet inputs keeps that. -/
theorem outputIsAPrefixOfTheSignal : Obligations.OutputIsAPrefixOfTheSignal := by
  intro s t k hinv _ hsn ho hunchanged hq hrun
  have hfirst : EmitsSignal s s :=
    { source := fun _ => ⟨rfl, rfl, rfl, rfl, rfl⟩
      unchanged := hunchanged
      latched := fun _ hloaded => by simp [sub_of_sn_zero hinv hsn, ho] at hloaded
      stream := by simp [hsn] }
  obtain ⟨u, hu, -, -, hemits⟩ := run_answers
    (P := fun _ u => (∀ x ∈ u.inputs, quietInput x) ∧ EmitsSignal s u)
    (fun _ u v huinv ⟨huq, huemits⟩ hv => by
      obtain ⟨hvq, -⟩ := quietInput_step huq hv
      exact ⟨hvq, step_emitsSignal huemits huinv huq hv⟩)
    k (k := 0) hinv ⟨hq, hfirst⟩
  obtain rfl := Host.Outcome.next.inj (hu.symm.trans hrun)
  exact hemits.stream

end Sys2Proof.Machine
end

section
/-! The length of a run (spec/20_memory.md R55, spec/60_exceptions.md R143): NLINES × 2080 × OVERSAMPLE bytes, and none
after a rejected START. -/

namespace Sys2Proof.Machine

/-! ## The outcome of START -/

theorem startRun_accepted {s : State} (h : checkConfig (clearOutcome s) = none) :
    startRun s = beginRun (clearOutcome s) := by
  simp [startRun, h]

theorem startRun_rejected {s : State} {code : BitVec 4} (h : checkConfig (clearOutcome s) = some code) :
    startRun s = raiseConfigError code (clearOutcome s) := by
  simp [startRun, h]

/-- A START that is taken sees the SINGLE of its own write (spec/44_host_commands.md R112). -/
theorem step_takesStart {s : State} {w : Word} {rest : List Input} (h : TakesStart w rest s) :
    step s = .next (startRun
      { s with irqEn := w.getLsbD 2, single := w.getLsbD 1, response := none, inputs := rest }) := by
  obtain ⟨hin, hidle, hgo⟩ := h
  have hexec : exec (decodeRequest ⟨true, 0x00#8, w⟩) { s with inputs := rest } =
      .next (writeCtrl w { s with inputs := rest }) := rfl
  rw [step_host hin, hexec]
  rcases writeCtrl_cases w { s with inputs := rest } with ⟨hb, -⟩ | ⟨-, hstop, -⟩ | ⟨-, -, hw⟩
  · exact flag_conflict hidle hb
  · exact flag_conflict hstop hgo
  · exact congrArg _ hw

theorem step_startAccepted {s : State} {w : Word} {rest : List Input} (h : TakesStart w rest s)
    (hcheck : checkConfig (checkedState w rest s) = none) : step s = .next (beginRun (checkedState w rest s)) := by
  rw [step_takesStart h, startRun_accepted (by exact hcheck)]
  rfl

theorem step_startRejected {s : State} {w : Word} {rest : List Input} {code : BitVec 4} (h : TakesStart w rest s)
    (hcheck : checkConfig (checkedState w rest s) = some code) :
    step s = .next (raiseConfigError code (checkedState w rest s)) := by
  rw [step_takesStart h, startRun_rejected (by exact hcheck)]
  rfl

/-- With an illegal width the check of START answers a code. -/
theorem checkConfig_fails (w : Word) (rest : List Input) {s : State}
    (h : s.widthA ≠ 909#16 ∨ (w.getLsbD 1 = false ∧ s.widthB ≠ 909#16)) :
    ∃ code, checkConfig (checkedState w rest s) = some code := by
  refine Option.ne_none_iff_exists'.mp fun hnone => ?_
  obtain ⟨hwa, hwb⟩ := (checkConfig_checkedState_none_iff w rest s).mp hnone
  rcases h with hwrong | ⟨hdouble, hwrong⟩
  · exact hwrong hwa
  · exact hwb.elim (flag_conflict hdouble) hwrong

/-- The number of lines is the greater of the effective heights (spec/40_line_framer.md R83, R93). -/
theorem runLines_checkedState (w : Word) (rest : List Input) (s : State) :
    (runLines (checkedState w rest s)).toNat =
      max s.heightA.toNat (if w.getLsbD 1 then s.heightA else s.heightB).toNat := by
  have hmax (a b : Half) : (maxHalf a b).toNat = max a.toNat b.toNat := by
    unfold maxHalf
    split_ifs <;> omega
  exact hmax _ _

/-! ## The number of samples -/

/-- While BUSY = 1 samples are left (spec/40_line_framer.md R96). -/
theorem sn_lt_of_busy {s : State} (h : Inv s) (hb : s.busy = true) :
    s.sn.toNat < s.nlines.toNat * 2080 * s.oversample.toNat := by
  have hline := h.busy_line hb
  have hsegment := segStart_add_segLen_le s.seg
  have hpos := h.pos_lt
  have hsymbols : s.line.toNat * lineSymbols + segStart s.seg + s.pos.toNat + 1 ≤ s.nlines.toNat * 2080 := by
    simp only [lineSymbols] at hsegment ⊢
    omega
  calc s.sn.toNat
      = (s.line.toNat * lineSymbols + segStart s.seg + s.pos.toNat) * s.oversample.toNat + s.sub.toNat := h.sn_position
    _ < (s.line.toNat * lineSymbols + segStart s.seg + s.pos.toNat + 1) * s.oversample.toNat := by
      rw [Nat.succ_mul]
      exact Nat.add_lt_add_left h.sub_lt _
    _ ≤ s.nlines.toNat * 2080 * s.oversample.toNat := Nat.mul_le_mul_right _ hsymbols

/-- Between runs the samples are those of all lines. -/
theorem sn_of_idle {s : State} (h : Inv s) (hidle : s.busy = false) :
    s.sn.toNat = s.nlines.toNat * 2080 * s.oversample.toNat := by
  obtain ⟨hline, hseg, hpos, hsub⟩ := h.idle_position hidle
  rw [h.sn_position, hline, hseg, hpos, hsub]
  simp [lineSymbols, segStart]

/-! ## A run and the time after it -/

/-- A state of a run of `lines` lines, or of the time after it: since `before` bytes the stream has grown by SN bytes. -/
structure CountsBytes (lines oversample before : Nat) (t : State) : Prop where
  continues : ∀ x ∈ t.inputs, continuesRun x
  nlines : t.nlines.toNat = lines
  oversample : t.oversample.toNat = oversample
  stream : t.stream.length = before + t.sn.toNat
  done : t.busy = false → t.done = true

theorem CountsBytes.length_of_busy {lines oversample before : Nat} {t : State}
    (h : CountsBytes lines oversample before t) (hinv : Inv t) (hb : t.busy = true) :
    t.stream.length < before + lines * 2080 * oversample := by
  have hlt := sn_lt_of_busy hinv hb
  rw [h.nlines, h.oversample] at hlt
  rw [h.stream]
  exact Nat.add_lt_add_left hlt _

theorem CountsBytes.length_of_idle {lines oversample before : Nat} {t : State}
    (h : CountsBytes lines oversample before t) (hinv : Inv t) (hidle : t.busy = false) :
    t.stream.length = before + lines * 2080 * oversample := by
  rw [h.stream, sn_of_idle hinv hidle, h.nlines, h.oversample]

/-- The first state of a run has accepted no byte. -/
theorem beginRun_countsBytes {s : State} (hc : ∀ x ∈ s.inputs, continuesRun x) :
    CountsBytes (runLines s).toNat s.oversample.toNat s.stream.length (beginRun s) where
  continues := hc
  nlines := rfl
  oversample := rfl
  stream := rfl
  done hidle := by simpa using hidle

/-- DONE rises with the fall of BUSY. -/
theorem workSample_done {d : Descriptor} {s : State} (hb : s.busy = true) (hidle : (workSample d s).busy = false) :
    (workSample d s).done = true := by
  rcases workSample_outcome d s with ⟨-, -, hkeep⟩ | ⟨-, -, hkeep | ⟨-, hdone⟩⟩
  · exact flag_conflict hidle (hkeep.trans hb)
  · exact flag_conflict hidle (hkeep.trans hb)
  · exact hdone

/-- SN and the stream count together while no byte wraps SN. -/
theorem workSample_length {d : Descriptor} {s : State} (h : Inv s) (hb : s.busy = true) :
    (workSample d s).stream.length + s.sn.toNat = s.stream.length + (workSample d s).sn.toNat := by
  rcases workSample_outcome d s with ⟨hsn, hstream, -⟩ | ⟨hsn, ⟨byte, hstream⟩, -⟩ <;> rw [hsn, hstream]
  rw [sn_succ_toNat h hb, List.length_append, List.length_singleton]
  omega

theorem CountsBytes.step {lines oversample before : Nat} {t u : State} (h : CountsBytes lines oversample before t)
    (hinv : Inv t) (hstep : step t = .next u) : CountsBytes lines oversample before u := by
  have hcontinues := continuesRun_step h.continues hstep
  rcases continuing_step h.continues hstep with hkeep | ⟨hb, inputs, rfl⟩
  · exact
      { continues := hcontinues
        nlines := by rw [hkeep.nlines, h.nlines]
        oversample := by rw [hkeep.oversample, h.oversample]
        stream := by rw [hkeep.stream, hkeep.sn, h.stream]
        done := by rw [hkeep.busy, hkeep.done]; exact h.done }
  · have hlength := workSample_length (d := segDescriptor t.seg) (s := { t with inputs := inputs }) { hinv with } hb
    have hbefore := h.stream
    exact
      { continues := hcontinues
        nlines := by simpa using h.nlines
        oversample := by simpa using h.oversample
        stream := by
          dsimp only at hlength
          omega
        done := workSample_done hb }

/-! ## An environment that answers at once -/

/-- No event waits and the environment answers; a run still going has accepted a byte in each of `k` steps. -/
structure RunsFreely (k : Nat) (t : State) : Prop where
  inputs : t.inputs = []
  pixelReady : t.pixelReady = true
  sinkReady : t.sinkReady = true
  steps_le : t.busy = true → k ≤ t.sn.toNat

/-- A slot accepts a byte if nobody makes it wait. -/
theorem workSample_sn_of_ready {d : Descriptor} {s : State} (hq : s.pixelReady = true) (hr : s.sinkReady = true) :
    (workSample d s).sn = s.sn + 1#32 := by
  have hoffer (t : State) (ht : t.sinkReady = true) : (offerSample d (holdSample t)).sn = t.sn + 1#32 := by
    rw [offerSample_some rfl, if_pos (by simpa using ht), commitSample_sn, holdSample_sn]
  rcases workSample_cases d s with ⟨byte, -, hw⟩ | ⟨-, -, hsilent, -⟩ | ⟨-, -, -, hw⟩ | ⟨-, -, hw⟩
  · rw [hw, if_pos hr, commitSample_sn]
  · exact flag_conflict hsilent hq
  · rw [hw, hoffer _ (by simpa using hr)]
    simp
  · rw [hw, hoffer _ (by simpa using hr)]
    simp

theorem RunsFreely.step {k : Nat} {t u : State} (h : RunsFreely k t) (hinv : Inv t)
    (hstep : step t = .next u) : RunsFreely (k + 1) u := by
  by_cases hb : t.busy = true
  · rw [step_no_event_busy h.inputs hb, sampleStep_answers hinv hb] at hstep
    cases hstep
    refine ⟨by simpa using h.inputs, by simpa using h.pixelReady, by simpa using h.sinkReady, fun _ => ?_⟩
    rw [workSample_sn_of_ready h.pixelReady h.sinkReady, sn_succ_toNat hinv hb]
    exact Nat.succ_le_succ (h.steps_le hb)
  · have hidle : t.busy = false := by simpa using hb
    rw [step_no_event_idle h.inputs hidle] at hstep
    cases hstep
    exact ⟨h.inputs, h.pixelReady, h.sinkReady, flag_conflict hidle⟩

/-! ## After a rejected START -/

/-- CFG_ERR stands and the block is idle: no byte follows. -/
structure StaysRejected (stream : List Byte) (t : State) : Prop where
  continues : ∀ x ∈ t.inputs, continuesRun x
  cfgErr : t.cfgErr = true
  idle : t.busy = false
  stream : t.stream = stream

theorem StaysRejected.step {stream : List Byte} {t u : State} (h : StaysRejected stream t)
    (hstep : step t = .next u) : StaysRejected stream u := by
  rcases continuing_step h.continues hstep with hkeep | ⟨hb, -⟩
  · exact ⟨continuesRun_step h.continues hstep, hkeep.cfgErr.trans h.cfgErr, hkeep.busy.trans h.idle,
      hkeep.stream.trans h.stream⟩
  · exact flag_conflict h.idle hb

/-! ## The obligation -/

/-- With nothing to wait for, BUSY falls within as many steps as the run has samples. -/
theorem run_ends {lines oversample before : Nat} {t : State} (hinv : Inv t)
    (h : CountsBytes lines oversample before t) (hfree : RunsFreely 0 t) :
    ∃ u, Host.Core.run Sys2Proof.core (lines * 2080 * oversample) t = .next u ∧ u.busy = false := by
  obtain ⟨u, hu, huinv, hcounts, hufree⟩ := run_answers
    (P := fun k u => CountsBytes lines oversample before u ∧ RunsFreely k u)
    (fun _ _ _ hinv ⟨hcounts, hfree⟩ hstep => ⟨hcounts.step hinv hstep, hfree.step hinv hstep⟩)
    (lines * 2080 * oversample) (k := 0) hinv ⟨h, hfree⟩
  refine ⟨u, hu, Bool.eq_false_iff.mpr fun hb => ?_⟩
  have hsteps := hufree.steps_le hb
  have hlength := hcounts.length_of_busy huinv hb
  have hstream := hcounts.stream
  omega

/-- Settles O59: SN counts the bytes since an accepted START, and it lies below the run's total while BUSY = 1 and at it
afterwards; a rejected START leaves the block idle. -/
theorem runEmitsExactlyItsSamples : Obligations.RunEmitsExactlyItsSamples := by
  intro s w rest hinv hidle hin hgo hc
  have hstart : TakesStart w rest s := ⟨hin, hidle, hgo⟩
  refine ⟨fun hwa hwb => ?_, fun hillegal k => ?_⟩
  · have hfirst := step_startAccepted hstart ((checkConfig_checkedState_none_iff w rest s).mpr ⟨hwa, hwb⟩)
    have hbegun := invariantIsKeptByEveryStep s _ hinv hfirst
    have hcounts := beginRun_countsBytes (s := checkedState w rest s) hc
    rw [runLines_checkedState] at hcounts
    refine ⟨fun k => ?_, fun hpixel hsink hnone => ?_⟩
    · obtain ⟨u, hu, huinv, hcount⟩ := run_answers (P := fun _ => CountsBytes _ _ _)
        (fun _ _ _ hinv h hstep => h.step hinv hstep) k (k := 0) hbegun hcounts
      exact ⟨u, (run_succ (M := Sys2Proof.core) hfirst k).trans hu, hcount.nlines, hcount.length_of_busy huinv,
        fun hdone => ⟨hcount.done hdone, hcount.length_of_idle huinv hdone⟩⟩
    · obtain ⟨u, hu, hend⟩ := run_ends hbegun hcounts ⟨hnone, hpixel, hsink, fun _ => Nat.zero_le _⟩
      exact ⟨u, (run_succ (M := Sys2Proof.core) hfirst _).trans hu, hend⟩
  · obtain ⟨code, hcode⟩ := checkConfig_fails w rest hillegal
    have hfirst := step_startRejected hstart hcode
    obtain ⟨u, hu, -, hrejected⟩ := run_answers (P := fun _ => StaysRejected s.stream)
      (fun _ _ _ _ h hstep => h.step hstep) k (k := 0) (invariantIsKeptByEveryStep s _ hinv hfirst)
      ⟨hc, rfl, hidle, rfl⟩
    exact ⟨u, (run_succ (M := Sys2Proof.core) hfirst k).trans hu, hrejected.cfgErr, hrejected.idle, hrejected.stream⟩

end Sys2Proof.Machine
end

section
/-! The selector table of the host bus (spec/30_encoding.md R74) and the encoder: each undoes the other. -/

namespace Sys2Proof.Machine

/-! ## The three kinds of offsets -/

/-- The offsets of the registers below SEGDESC (spec/20_memory.md R44). -/
def registerOffsets : List (BitVec 8) :=
  [0x00#8, 0x04#8, 0x08#8, 0x0C#8, 0x10#8, 0x14#8, 0x18#8, 0x1C#8, 0x20#8, 0x24#8, 0x28#8, 0x2C#8]

/-- An offset is a register's, SEGDESC's, or unmapped. -/
theorem offset_cases (addr : BitVec 8) :
    addr ∈ registerOffsets ∨ isSegdescOffset addr = true ∨ mappedOffset addr = false := by
  cases hmapped : mappedOffset addr with
  | false => exact .inr (.inr rfl)
  | true =>
    have hlt := addr.isLt
    simp only [mappedOffset, Bool.and_eq_true, Bool.or_eq_true, beq_iff_eq, decide_eq_true_eq] at hmapped
    simp only [registerOffsets, List.mem_cons, List.not_mem_nil, isSegdescOffset, Bool.and_eq_true, beq_iff_eq,
      BitVec.toNat_eq, BitVec.extractLsb'_toNat, Nat.shiftRight_eq_div_pow, BitVec.toNat_ofNat]
    omega

/-! ## SEGDESC -/

theorem isSegdescOffset_segdescOffset (n : BitVec 3) : isSegdescOffset (segdescOffset n) = true := by
  revert n; decide

theorem segdescIndex_segdescOffset (n : BitVec 3) : segdescIndex (segdescOffset n) = n := by
  revert n; decide

theorem segdescOffset_segdescIndex {addr : BitVec 8} (h : isSegdescOffset addr = true) :
    segdescOffset (segdescIndex addr) = addr := by
  simp only [isSegdescOffset, Bool.and_eq_true, beq_iff_eq] at h
  obtain ⟨hhigh, hlow⟩ := h
  rw [segdescOffset, segdescIndex, ← hhigh, ← hlow,
    BitVec.extractLsb'_append_extractLsb'_eq_extractLsb' (by rfl),
    BitVec.extractLsb'_append_extractLsb'_eq_extractLsb' (by rfl)]
  exact BitVec.extractLsb'_eq_self

/-- The bits 0b010nnn00 of R74 are the n-th word from 0x40 (spec/20_memory.md R44). -/
theorem segdescOffset_eq_ofNat (n : BitVec 3) : segdescOffset n = BitVec.ofNat 8 (0x40 + 4 * n.toNat) := by
  revert n; decide

theorem decodeRead_segdesc {addr : BitVec 8} (h : isSegdescOffset addr = true) :
    decodeRead addr = .rdSegdesc (segdescIndex addr) := by
  unfold decodeRead
  iterate 12 rw [if_neg (by rintro rfl; exact flag_conflict rfl h)]
  rw [if_pos h]

theorem decodeWrite_segdesc {addr : BitVec 8} (h : isSegdescOffset addr = true) (w : Word) :
    decodeWrite addr w = .wrRoSegdesc (segdescIndex addr) w := by
  unfold decodeWrite
  iterate 12 rw [if_neg (by rintro rfl; exact flag_conflict rfl h)]
  rw [if_pos h]

theorem decodeRead_segdescOffset (n : BitVec 3) : decodeRead (segdescOffset n) = .rdSegdesc n := by
  rw [decodeRead_segdesc (isSegdescOffset_segdescOffset n), segdescIndex_segdescOffset]

theorem decodeWrite_segdescOffset (n : BitVec 3) (w : Word) :
    decodeWrite (segdescOffset n) w = .wrRoSegdesc n w := by
  rw [decodeWrite_segdesc (isSegdescOffset_segdescOffset n), segdescIndex_segdescOffset]

/-! ## Requests -/

/-- A read's write data is ignored (R73). -/
theorem decode_read (addr : BitVec 8) (w : Word) : decode (.hb ⟨false, addr, w⟩) = .instr (decodeRead addr) := rfl

theorem decode_write (addr : BitVec 8) (w : Word) : decode (.hb ⟨true, addr, w⟩) = .instr (decodeWrite addr w) := rfl

/-- An instruction is a well-formed one that the encoder writes as a packet. -/
def Encodes (i : Instr) (p : Packet) : Prop := i.wellFormed = true ∧ encode i = p

theorem encodes_decodeRead (addr : BitVec 8) : Encodes (decodeRead addr) (readRequest addr) := by
  rcases offset_cases addr with hreg | hseg | hunmapped
  · fin_cases hreg <;> exact ⟨rfl, rfl⟩
  · rw [decodeRead_segdesc hseg]
    exact ⟨rfl, congrArg readRequest (segdescOffset_segdescIndex hseg)⟩
  · rw [decodeRead_unmapped hunmapped]
    exact ⟨congrArg (!·) hunmapped, rfl⟩

theorem encodes_decodeWrite (addr : BitVec 8) (w : Word) : Encodes (decodeWrite addr w) (writeRequest addr w) := by
  rcases offset_cases addr with hreg | hseg | hunmapped
  · fin_cases hreg <;> exact ⟨rfl, rfl⟩
  · rw [decodeWrite_segdesc hseg]
    exact ⟨rfl, congrArg (writeRequest · w) (segdescOffset_segdescIndex hseg)⟩
  · rw [decodeWrite_unmapped hunmapped]
    exact ⟨congrArg (!·) hunmapped, rfl⟩

/-! ## The obligations -/

/-- Settles O1: a descriptor or a register's selector is one line of its table; SEGDESC's index is read back from the
offset, and an unmapped offset, which well-formedness demands, matches no register's line. -/
theorem decodeOfEncodeIsTheInstruction : Obligations.DecodeOfEncodeIsTheInstruction := by
  intro i hwf
  cases i with
  | rdSegdesc n => exact congrArg Decoded.instr (decodeRead_segdescOffset n)
  | wrRoSegdesc n w => exact congrArg Decoded.instr (decodeWrite_segdescOffset n w)
  | rdUnmapped addr => exact congrArg Decoded.instr (decodeRead_unmapped ((Bool.not_eq_true' _).mp hwf))
  | wrUnmapped addr w => exact congrArg Decoded.instr (decodeWrite_unmapped ((Bool.not_eq_true' _).mp hwf) w)
  | _ => rfl

/-- Settles O2: the registers' lines are read off the table; SEGDESC and the unmapped offsets are its last lines. -/
theorem hostBusDecodeTable : Obligations.HostBusDecodeTable := by
  intro w
  refine ⟨fun p hp => ?_, fun p hp => ?_, fun n => ?_, fun addr haddr => ?_⟩
  · fin_cases hp <;> rfl
  · fin_cases hp <;> rfl
  · rw [← segdescOffset_eq_ofNat, decode_read, decode_write, decodeRead_segdescOffset, decodeWrite_segdescOffset]
    exact ⟨rfl, rfl⟩
  · have hunmapped := mappedOffset_eq_false haddr
    rw [decode_read, decode_write, decodeRead_unmapped hunmapped, decodeWrite_unmapped hunmapped]
    exact ⟨rfl, rfl⟩

/-- Settles O3: the decoder is total on requests, and the encoder undoes it on each kind of offset. -/
theorem encodeOfDecodeIsTheRequest : Obligations.EncodeOfDecodeIsTheRequest := by
  rintro ⟨we, addr, w⟩
  cases we with
  | false => exact ⟨decodeRead addr, decode_read addr w, encodes_decodeRead addr⟩
  | true => exact ⟨decodeWrite addr w, decode_write addr w, encodes_decodeWrite addr w⟩

/-- Settles O6: the descriptors are four of the ROM's; each request is the encoding of its instruction. -/
theorem writtenOutPacketsDecode : Obligations.WrittenOutPacketsDecode :=
  ⟨decode_segDesc 0#3, decode_segDesc 5#3, decode_segDesc 2#3, decode_segDesc 7#3,
   decodeOfEncodeIsTheInstruction (.wrCtrl 3#32) rfl, decodeOfEncodeIsTheInstruction (.rdSegdesc 2#3) rfl,
   decodeOfEncodeIsTheInstruction (.wrUnmapped 1#8 1#32) rfl, decodeOfEncodeIsTheInstruction (.rdUnmapped 0x30#8) rfl⟩

end Sys2Proof.Machine
end

section
/-! Reserved descriptors (spec/30_encoding.md R72): the decoder refuses them, the segment ROM holds none, and no step
meets one. -/

namespace Sys2Proof.Machine

/-! ## Reserved descriptors -/

theorem segOpOfBits_eq_some_iff (bits : BitVec 3) (op : SegOp) :
    segOpOfBits bits = some op ↔ bits = bitsOfSegOp op := by
  cases op <;> revert bits <;> decide

/-- Bit 15 is the OP field's top bit (R69). -/
theorem getLsbD_fifteen (w : BitVec 16) : w.getLsbD 15 = (w.extractLsb' 13 3).getLsbD 2 := by
  simp

/-- A descriptor word whose fields the decoder reads passes every check of R72. -/
theorem not_reserved_of_descriptorFields_ok {w : BitVec 16} {d : Descriptor} (h : descriptorFields w = .ok d) :
    reservedDescriptor w = false := by
  unfold descriptorFields at h
  cases hop : segOpOfBits (w.extractLsb' 13 3) with
  | none => simp [hop] at h
  | some op =>
    have hbits := (segOpOfBits_eq_some_iff _ _).mp hop
    simp only [hop] at h
    split_ifs at h with hbit hlevel hzero hsync himage
    rw [reservedDescriptor, getLsbD_fifteen, hbits, Bool.eq_false_iff.mpr hbit, beq_eq_false_iff_ne.mpr hzero]
    cases op with
    | sync => simpa [bitsOfSegOp] using And.intro hlevel hsync
    | space => simp [bitsOfSegOp]
    | image => simpa [bitsOfSegOp] using And.intro hlevel himage
    | telem => simpa [bitsOfSegOp] using hlevel

theorem decode_seg_of_error {w : BitVec 16} {why : DecodeError} (h : descriptorFields w = .error why) :
    decode (.seg w) = .rejected why := by
  simp [decode, decodeSegment, h]

theorem decode_reserved {w : BitVec 16} (h : reservedDescriptor w = true) :
    ∃ why, decode (.seg w) = .rejected why := by
  cases hfields : descriptorFields w with
  | error why => exact ⟨why, decode_seg_of_error hfields⟩
  | ok d => exact flag_conflict (not_reserved_of_descriptorFields_ok hfields) h

/-- Settles O4: only a word that passes R72's checks has fields, and every ROM word decodes to an operation. -/
theorem reservedDescriptorsAreRefused : Obligations.ReservedDescriptorsAreRefused := by
  refine ⟨fun w => decode_reserved, fun n => Bool.eq_false_iff.mpr fun hreserved => ?_⟩
  obtain ⟨why, hwhy⟩ := decode_reserved hreserved
  rw [decode_segDesc] at hwhy
  cases hwhy

/-! ## The step -/

/-- A SampleStep answers or faults. -/
theorem sampleStep_ne_refused (d : Descriptor) (s : State) (why : Refusal) : sampleStep d s ≠ .refused why := by
  unfold sampleStep
  split_ifs <;> exact nofun

theorem slot_ne_refused (d : Descriptor) (s t : State) (why : Refusal) :
    (if s.busy then sampleStep d t else .next t) ≠ .refused why := by
  split_ifs
  · exact sampleStep_ne_refused d t why
  · exact nofun

theorem exec_decodeRequest_ne_refused (r : HbRequest) (s : State) (why : Refusal) :
    exec (decodeRequest r) s ≠ .refused why := by
  rcases exec_decodeRequest r s with ⟨-, v, hr⟩ | ⟨-, ⟨-, hr⟩ | ⟨f, -, hr⟩ | hr⟩ <;> rw [hr] <;> exact nofun

/-- Settles O10: a step runs a SampleStep at a ROM descriptor or the operation of a request, and neither is refused. -/
theorem noStepIsRefused : Obligations.NoStepIsRefused := by
  intro s why
  rcases step_cases s with ⟨-, hs⟩ | ⟨rest, ⟨r, -, hs⟩ | ⟨-, hs⟩ | ⟨_, -, hs⟩ | ⟨_, -, hs⟩ | ⟨_, _, -, hs⟩ |
    ⟨_, -, hs⟩ | ⟨_, -, hs⟩⟩ <;> rw [hs]
  · exact slot_ne_refused _ s s why
  · exact exec_decodeRequest_ne_refused r _ why
  · exact slot_ne_refused _ s _ why
  all_goals exact nofun

end Sys2Proof.Machine
end

section
/-! The constants a line is made of: the segment program (spec/30_encoding.md R70), the sync codewords (R67) and the
telemetry value (R68, spec/40_line_framer.md R92). -/

namespace Sys2Proof.Machine

/-- Settles O5: the ROM and the segments' geometry are read off their tables. -/
theorem segmentRomDecodesInOrder : Obligations.SegmentRomDecodesInOrder := by
  refine ⟨rfl, ?_, rfl, rfl, segStart_last⟩
  simp only [decode_segDesc]
  rfl

/-! ## The sync codewords -/

/-- The characters of a codeword, from bit 38 down (R66). -/
def codeChars (code : BitVec 39) : List Char :=
  (List.range 39).map fun pos => if code.getMsbD pos then '1' else '0'

theorem syncSymbol_ofNat (code : BitVec 39) {pos : Nat} (h : pos < 39) :
    syncSymbol code (BitVec.ofNat 10 pos) = levelByte (code.getMsbD pos) := by
  rw [syncSymbol, BitVec.toNat_ofNat, Nat.mod_eq_of_lt (by omega)]

/-- R67's character map, for any codeword. -/
theorem map_level_codeChars (code : BitVec 39) :
    (codeChars code).map (fun c => if c = '1' then 255#8 else 0#8) =
      (List.range 39).map fun pos => syncSymbol code (BitVec.ofNat 10 pos) := by
  rw [codeChars, List.map_map]
  refine List.map_congr_left fun pos hpos => ?_
  rw [syncSymbol_ofNat code (List.mem_range.mp hpos)]
  cases hbit : code.getMsbD pos <;> simp [hbit, levelByte]

/-- Thresholding the symbols at 128 recovers any codeword. -/
theorem codeChars_eq_threshold (code : BitVec 39) :
    codeChars code = (List.range 39).map fun pos =>
      if 128 ≤ (syncSymbol code (BitVec.ofNat 10 pos)).toNat then '1' else '0' := by
  refine List.map_congr_left fun pos hpos => ?_
  rw [syncSymbol_ofNat code (List.mem_range.mp hpos)]
  cases code.getMsbD pos <;> rfl

/-- Settles O7: each string is its codeword's characters, and the rest holds for any codeword. -/
theorem syncSymbolsDecodeToTheCodewords : Obligations.SyncSymbolsDecodeToTheCodewords := by
  refine ⟨rfl, rfl, fun p hp => ?_⟩
  have hchars : p.1.toList = codeChars (syncCode p.2) := by
    fin_cases hp <;> decide
  rw [hchars]
  exact ⟨map_level_codeChars _, codeChars_eq_threshold _⟩

/-! ## The telemetry value -/

/-- The formula of R92 gives the LUT's entry of R68, wedge by wedge. -/
theorem telem_eq_telemLut (line : Half) : telem line = telemLut (line.toNat % 128 / 8) := by
  have hwedge : line.toNat % 128 / 8 < 16 := by omega
  unfold telem
  generalize line.toNat % 128 / 8 = wedge at hwedge
  interval_cases wedge <;> rfl

/-- The line counter wraps at a multiple of the telemetry frame. -/
theorem toNat_add_frame_mod (line : Half) : (line + 128#16).toNat % 128 = line.toNat % 128 := by
  rw [BitVec.toNat_add, BitVec.toNat_ofNat]
  omega

/-- Settles O30: the value depends on the line's place in its frame of 128 only. -/
theorem telemetryIsTheLutAndPeriodic : Obligations.TelemetryIsTheLutAndPeriodic := by
  refine ⟨telem_eq_telemLut, fun line => ?_⟩
  rw [telem_eq_telemLut, telem_eq_telemLut, toNat_add_frame_mod]

end Sys2Proof.Machine
end

section
/-! The range of the output bytes (spec/30_encoding.md R65, spec/41_carrier_modulator.md R104). -/

namespace Sys2Proof.Machine

/-- The model's sine exceeds 1 by at most 10^-18, the error of its series (log 12). -/
theorem abs_carrierSine_le {h k : Nat} (hh : 0 < h) (hk : k ≤ 2 * h) :
    |carrierSine (2 * h) k| ≤ 10 ^ 30 + 10 ^ 12 := by
  have hclose := abs_le.mp (carrierSine_close hh hk)
  have hsin := abs_le.mp (Real.abs_sin_le_one (2 * Real.pi * k / (2 * h : Nat)))
  have hreal : |(carrierSine (2 * h) k : ℝ)| ≤ 10 ^ 30 + 10 ^ 12 := by
    rw [abs_le]
    constructor <;> linarith
  exact_mod_cast hreal

/-- 0.35 · 255 = 89.25, so that the sine's error cannot reach the next byte. -/
theorem quantise_range (v : Byte) {sine : Int} (h : |sine| ≤ 10 ^ 30 + 10 ^ 12) :
    38 ≤ quantise v sine ∧ quantise v sine ≤ 217 := by
  have hv : (v.toNat : Int) ≤ 255 := by have := v.isLt; omega
  have hprod : |(v.toNat : Int) * sine| ≤ 255 * (10 ^ 30 + 10 ^ 12) := by
    rw [abs_mul, Nat.abs_cast]
    exact mul_le_mul hv h (abs_nonneg _) (by norm_num)
  obtain ⟨hlow, hhigh⟩ := abs_le.mp hprod
  rw [quantise, mul_assoc]
  generalize (v.toNat : Int) * sine = p at hlow hhigh
  simp only [sineOne]
  omega

theorem clampByte_toNat {y : Int} (h0 : 0 ≤ y) (h255 : y ≤ 255) : ((clampByte y).toNat : Int) = y := by
  rw [clampByte, min_eq_right h255, max_eq_right h0, BitVec.toNat_ofInt]
  omega

/-- Settles O42: the quantised value lies in 38..217 already, where the clamp leaves it. -/
theorem outputBytesLieBetween38And217 : Obligations.OutputBytesLieBetween38And217 := by
  intro os v k hk
  have hmod : phaseModulus os = 2 * (13 * os.toNat) := by rw [phaseModulus]; omega
  have hsine := abs_carrierSine_le (h := 13 * os.toNat) (k := k.toNat) (by omega) (by omega)
  obtain ⟨hlow, hhigh⟩ := quantise_range v hsine
  have hbyte := clampByte_toNat (y := quantise v (carrierSine (2 * (13 * os.toNat)) k.toNat)) (by omega) (by omega)
  rw [modulatorByte, hmod]
  omega

end Sys2Proof.Machine
end

section
/-! The line framer (spec/40_line_framer.md R82 to R95): the symbol of each segment operation, and the advance of the
sequencer. -/

namespace Sys2Proof.Machine

/-! ## Operands -/

/-- A sync symbol is the level of bit 38 - POS of its codeword (spec/30_encoding.md R67). -/
theorem syncSymbol_eq_bit (code : BitVec 39) {pos : BitVec 10} (h : pos.toNat < 39) :
    syncSymbol code pos = if code.getLsbD (38 - pos.toNat) then 255#8 else 0#8 := by
  simp [syncSymbol, levelByte, BitVec.getMsbD, h]

/-- Only the first sample of a symbol reads a pixel (R95). -/
theorem needsPixel_of_sub_ne_zero {s : State} (d : Descriptor) (h : s.sub ≠ 0#5) : needsPixel d s = false := by
  simp [needsPixel, h]

/-- Only the IMAGE operations read a pixel (R95). -/
theorem needsPixel_of_op_ne {d : Descriptor} (s : State) (h : d.op ≠ .image) : needsPixel d s = false := by
  simp [needsPixel, inImage, h]

/-- A line at or past the effective height has no pixel (R86, R90). -/
theorem needsPixel_past_height {d : Descriptor} {s : State} (h : (effHeight s d.ch).toNat ≤ s.line.toNat) :
    needsPixel d s = false := by
  simp [needsPixel, inImage, Nat.not_lt.mpr h]

/-! ## A ready slot -/

theorem Ready.pos_lt {d : Descriptor} {s : State} (h : Ready d s) : s.pos.toNat < d.len.toNat := by
  obtain ⟨⟨-, -, hpos⟩, -, -⟩ := h
  exact hpos

/-- A byte presented to a ready sink is accepted at once. -/
theorem offerSample_holdSample {s : State} (d : Descriptor) (h : s.sinkReady = true) :
    offerSample d (holdSample s) = commitSample d (modulatorByte s.oversample s.sym s.phase) s := by
  rw [offerSample_some (holdSample_outHold s), holdSample_sinkReady, if_pos h]
  rfl

section
variable {i : Instr} {d : Descriptor} {s : State}

/-- A ready slot without a pixel read completes with the symbol that `loadSymbol` leaves in SYM. -/
theorem exec_ready_no_pixel (hi : (i, d) ∈ segmentOps) (h : Ready d s) (hn : needsPixel d s = false) :
    exec i s = .next (afterSample d (if s.sub = 0#5 then fixedSymbol d s else s.sym) s) := by
  obtain ⟨henabled, ho, hsink⟩ := h
  have hwork : exec i s = .next (workSample d s) := exec_segmentOp_enabled hi henabled
  have hready : (loadSymbol d s).sinkReady = true := by rw [loadSymbol_sinkReady, hsink]
  rw [hwork, workSample_no_pixel ho hn, offerSample_holdSample d hready, loadSymbol_eq]
  exact congrArg _ (commitSample_eq_afterSample ho _)

/-- The first sample of a symbol that reads no pixel emits the position's fixed symbol. -/
theorem exec_ready_fixed (hi : (i, d) ∈ segmentOps) (h : Ready d s) (hsub : s.sub = 0#5)
    (hn : needsPixel d s = false) : exec i s = .next (afterSample d (fixedSymbol d s) s) := by
  rw [exec_ready_no_pixel hi h hn, if_pos hsub]

/-- The first sample of a SYNC, SPACE or TELEM symbol emits the position's fixed symbol. -/
theorem exec_ready_no_image (hi : (i, d) ∈ segmentOps) (hop : d.op ≠ .image) (hsub : s.sub = 0#5) (h : Ready d s) :
    exec i s = .next (afterSample d (fixedSymbol d s) s) :=
  exec_ready_fixed hi h hsub (needsPixel_of_op_ne s hop)

/-- The first sample of an IMAGE symbol below the effective height logs one request and emits its pixel. -/
theorem exec_ready_pixel (hi : (i, d) ∈ segmentOps) (h : Ready d s) (hn : needsPixel d s = true)
    (hnew : s.pixPending = false) (hsource : s.pixelReady = true)
    (hunchanged : pixelAddr (pixelRequest d s) ∉ s.changed) :
    exec i s = .next (afterSample d (pixelAt s (pixelRequest d s))
      { s with requests := s.requests ++ [pixelRequest d s] }) := by
  obtain ⟨⟨hbusy, hphase, hpos⟩, ho, hsink⟩ := h
  have hstep : exec i s = sampleStep d s := exec_segmentOp hi s
  have hlatched : takeResponse d (issueRequest d s) =
      { s with sym := pixelAt s (pixelRequest d s), requests := s.requests ++ [pixelRequest d s] } := by
    rw [takeResponse_issueRequest]
    simp [hnew, hunchanged]
  rw [hstep, sampleStep_pixel hbusy hphase hpos ho hsink hsource hn, hlatched]
  exact congrArg _ (commitSample_eq_afterSample (s := { s with requests := s.requests ++ [pixelRequest d s] }) ho _)

end

/-! ## The obligations -/

/-- Settles O35: the cases of `advance_cases` exclude each other. -/
theorem advanceMovesByOneSample : Obligations.AdvanceMovesByOneSample := by
  intro d s
  rcases advance_cases d s with ⟨hsub, ha⟩ | ⟨hsub, hpos, ha⟩ | ⟨hsub, hpos, hseg, ha⟩ |
    ⟨hsub, hpos, hseg, hline, ha⟩ | ⟨hsub, hpos, hseg, hline, ha⟩
  · exact ⟨fun _ => ha, fun h => absurd hsub (by omega)⟩
  · exact ⟨fun h => absurd h (by omega), fun _ => ⟨fun _ => ha, fun h => absurd hpos (by omega)⟩⟩
  · exact ⟨fun h => absurd h (by omega), fun _ => ⟨fun h => absurd h (by omega), fun _ =>
      ⟨fun _ => ha, fun h => absurd hseg (by simp [h])⟩⟩⟩
  · exact ⟨fun h => absurd h (by omega), fun _ => ⟨fun h => absurd h (by omega), fun _ =>
      ⟨fun h => absurd hseg h, fun _ => ⟨fun _ => ha, fun h => absurd h hline⟩⟩⟩⟩
  · exact ⟨fun h => absurd h (by omega), fun _ => ⟨fun h => absurd h (by omega), fun _ =>
      ⟨fun h => absurd hseg h, fun _ => ⟨fun h => absurd hline h, fun _ => ha⟩⟩⟩⟩

/-- Settles O24: the fixed symbol of a SYNC position is the level of its codeword's character. -/
theorem syncOperationsEmitTheCodewords : Obligations.SyncOperationsEmitTheCodewords := by
  refine ⟨decode_segDesc 0#3, decode_segDesc 4#3, fun s hsub => ⟨fun h => ?_, fun h => ?_⟩⟩ <;>
    rw [← syncSymbol_eq_bit _ h.pos_lt]
  · exact exec_ready_no_image (d := descSyncA) (by decide) (by decide) hsub h
  · exact exec_ready_no_image (d := descSyncB) (by decide) (by decide) hsub h

/-- Settles O25: the fixed symbol of a SPACE position is the level of its descriptor's LVL. -/
theorem spaceOperationsEmitTheirLevels : Obligations.SpaceOperationsEmitTheirLevels :=
  ⟨decode_segDesc 1#3, decode_segDesc 5#3, fun _ hsub =>
    ⟨exec_ready_no_image (d := descSpaceA) (by decide) (by decide) hsub,
      exec_ready_no_image (d := descSpaceB) (by decide) (by decide) hsub⟩⟩

/-- Settles O26: the effective height and the source channel of R83 are the statement's own choices by SINGLE. -/
theorem imageOperationsEmitThePixel : Obligations.ImageOperationsEmitThePixel := by
  refine ⟨decode_segDesc 2#3, decode_segDesc 6#3, fun s hsub hnew hsource =>
    ⟨fun h hline hunchanged => ?_, fun h hline hunchanged => ?_⟩⟩
  · have hn : needsPixel descImageA s = true := (needsPixel_iff _ _).mpr ⟨hsub, rfl, hline⟩
    exact exec_ready_pixel (by decide) h hn hnew hsource hunchanged
  · have hn : needsPixel descImageB s = true := (needsPixel_iff _ _).mpr ⟨hsub, rfl, hline⟩
    exact exec_ready_pixel (by decide) h hn hnew hsource hunchanged

/-- Settles O27: past the effective height an IMAGE position reads no pixel, and its fixed symbol is black. -/
theorem imageOperationsPadWithBlack : Obligations.ImageOperationsPadWithBlack :=
  fun _ hsub =>
    ⟨fun h hline => exec_ready_fixed (by decide) h hsub (needsPixel_past_height (d := descImageA) hline),
      fun h hline => exec_ready_fixed (by decide) h hsub (needsPixel_past_height (d := descImageB) hline)⟩

/-- Settles O28: the fixed symbol of a TELEM position is the telemetry value, which is the LUT's entry. -/
theorem telemetryOperationsEmitTheWedge : Obligations.TelemetryOperationsEmitTheWedge := by
  refine ⟨decode_segDesc 3#3, decode_segDesc 7#3, fun s hsub => ?_⟩
  rw [← telem_eq_telemLut]
  exact ⟨exec_ready_no_image (d := descTelemA) (by decide) (by decide) hsub,
    exec_ready_no_image (d := descTelemB) (by decide) (by decide) hsub⟩

/-- Settles O29: a later sample reads no pixel and keeps SYM, whatever the operation. -/
theorem laterSamplesUseTheLatchedSymbol : Obligations.LaterSamplesUseTheLatchedSymbol := by
  intro p hp s hsub h
  rw [exec_ready_no_pixel hp h (needsPixel_of_sub_ne_zero p.2 hsub), if_neg hsub]

end Sys2Proof.Machine
end

section
/-! How near the multiples of a fraction a/D come to an integer: neighbouring fractions p/q and p'/q' around a/D tell
it for all multiples below q + q' at once. -/

namespace Sys2Proof.Machine

/-- The denominators q and q' of two neighbouring fractions p/q ≤ a/D ≤ p'/q', with e = D (qa/D - p) and
e' = D (p' - q'a/D). -/
def Brackets (a D : ℤ) (q e q' e' : ℕ) : Prop :=
  ∃ p p' : ℤ, (e : ℤ) = q * a - p * D ∧ (e' : ℤ) = p' * D - q' * a ∧ q * p' - q' * p = 1

/-- The mediant (p + p')/(q + q') takes the place of the neighbour on its side of a/D; k mediants in a row give
(kp + p')/(kq + q'). -/
theorem Brackets.mediants_above {a D : ℤ} {q e q' e' : ℕ} (h : Brackets a D q e q' e') {k : ℕ} (hle : k * e ≤ e') :
    Brackets a D q e (k * q + q') (e' - k * e) := by
  obtain ⟨p, p', he, he', hdet⟩ := h
  refine ⟨p, k * p + p', he, ?_, ?_⟩
  · push_cast [hle]
    linear_combination he' - k * he
  · push_cast
    linear_combination hdet

theorem Brackets.mediants_below {a D : ℤ} {q e q' e' : ℕ} (h : Brackets a D q e q' e') {k : ℕ} (hle : k * e' ≤ e) :
    Brackets a D (q + k * q') (e - k * e') q' e' := by
  obtain ⟨p, p', he, he', hdet⟩ := h
  refine ⟨p + k * p', p', ?_, he', ?_⟩
  · push_cast [hle]
    linear_combination he - k * he'
  · push_cast
    linear_combination hdet

/-- A positive combination below q + q' has coefficients of opposite signs. -/
theorem opposite_signs {q q' : ℕ} {x y : ℤ} (hpos : 0 < x * q + y * q') (hlt : x * q + y * q' < q + q') :
    (1 ≤ x ∧ y ≤ 0) ∨ (x ≤ 0 ∧ 1 ≤ y) := by
  rcases le_or_gt x 0 with hx | hx <;> rcases le_or_gt y 0 with hy | hy
  · nlinarith
  · exact .inr ⟨hx, hy⟩
  · exact .inl ⟨hx, hy⟩
  · nlinarith

/-- A multiple of a/D below the mediant's denominator comes no nearer to an integer n than q and q' do: v = xq + yq' and
n = xp + yp', where x and y have opposite signs, so that the distances of p/q and p'/q' add up. -/
theorem Brackets.min_le_abs {a D : ℤ} {q e q' e' : ℕ} (h : Brackets a D q e q' e') {v : ℕ} (hv : 0 < v)
    (hlt : v < q + q') (n : ℤ) : min (e : ℤ) e' ≤ |v * a - n * D| := by
  obtain ⟨p, p', he, he', hdet⟩ := h
  obtain ⟨x, hx⟩ : ∃ x, x = v * p' - n * q' := ⟨_, rfl⟩
  obtain ⟨y, hy⟩ : ∃ y, y = n * q - v * p := ⟨_, rfl⟩
  have hv_eq : (v : ℤ) = x * q + y * q' := by rw [hx, hy]; linear_combination (-(v : ℤ)) * hdet
  have hdist : v * a - n * D = x * e - y * e' := by
    rw [hx, hy, he, he']; linear_combination (n * D - v * a) * hdet
  rw [hdist]
  rcases opposite_signs (q := q) (q' := q') (x := x) (y := y) (by omega) (by omega) with ⟨hx1, hy0⟩ | ⟨hx0, hy1⟩
  · exact (min_le_left _ _).trans (le_abs.mpr (.inl (by nlinarith)))
  · exact (min_le_right _ _).trans (le_abs.mpr (.inr (by nlinarith)))

/-- The mediants of two neighbours, as many in a row as stay on one side (Euclid's algorithm), until the denominators
add up to more than `bound`: both distances are then at least `margin`. -/
def farMultiples (bound margin : ℕ) : (fuel q e q' e' : ℕ) → Bool
  | 0, _, _, _, _ => false
  | fuel + 1, q, e, q', e' =>
    if bound < q + q' then decide (margin ≤ e) && decide (margin ≤ e')
    else if e ≤ e' then farMultiples bound margin fuel q e (e' / e * q + q') (e' % e)
    else farMultiples bound margin fuel (q + e / e' * q') (e % e') q' e'

/-- The last neighbours bound the distance of every multiple up to `bound`. -/
theorem Brackets.far {a D : ℤ} {bound margin fuel q e q' e' : ℕ} (h : Brackets a D q e q' e')
    (hfar : farMultiples bound margin fuel q e q' e' = true) {v : ℕ} (hv : 0 < v) (hbound : v ≤ bound) (n : ℤ) :
    (margin : ℤ) ≤ |v * a - n * D| := by
  induction fuel generalizing q e q' e' with
  | zero => simp [farMultiples] at hfar
  | succ fuel ih =>
    unfold farMultiples at hfar
    split_ifs at hfar with hstop hle
    · have hmargin : margin ≤ min e e' := by simpa using hfar
      have hdist := h.min_le_abs hv (by omega) n
      exact le_trans (by exact_mod_cast hmargin) hdist
    · exact ih (Nat.mod_eq_sub_div_mul ▸ h.mediants_above (Nat.div_mul_le_self e' e)) hfar
    · exact ih (Nat.mod_eq_sub_div_mul ▸ h.mediants_below (Nat.div_mul_le_self e e')) hfar

end Sys2Proof.Machine
end

section
/-! The output byte is the exact quantisation of the sine (spec/41_carrier_modulator.md R101 to R105). The model's sine
is within 10^-18 of the real one (log 12), and exact where the sine is rational; elsewhere no symbol brings 0.35 v sin
near a rounding tie. -/

namespace Sys2Proof.Machine

/-! ## The angles of the first quarter -/

/-- The angle of R102, 2πk/m. -/
noncomputable def carrierAngle (m k : ℕ) : ℝ := 2 * Real.pi * k / m

/-- The angles of the first quarter at which a sine is rational: 0, 1/2 and 1. -/
abbrev RationalAngle (m j : ℕ) : Prop := j = 0 ∨ 4 * j = m ∨ 12 * j = m

/-- The model's sine is exact where the sine is rational (log 12). -/
theorem sineQuarter_exact {m j : ℕ} (hm : 0 < m) (h : RationalAngle m j) :
    (sineQuarter m j : ℝ) / 10 ^ 30 = Real.sin (carrierAngle m j) := by
  have hm' : (m : ℝ) ≠ 0 := by positivity
  rcases h with rfl | rfl | rfl
  · simp [sineQuarter, carrierAngle, hm.ne]
  · have hj : (j : ℝ) ≠ 0 := by rintro hzero; simp [hzero] at hm'
    have hangle : carrierAngle (4 * j) j = Real.pi / 2 := by
      rw [carrierAngle]; push_cast; field_simp; norm_num
    rw [hangle, Real.sin_pi_div_two, sineQuarter, if_pos rfl, sineOne_real, div_self (by norm_num)]
  · have hj : (j : ℝ) ≠ 0 := by rintro hzero; simp [hzero] at hm'
    have hangle : carrierAngle (12 * j) j = Real.pi / 6 := by
      rw [carrierAngle]; push_cast; field_simp; norm_num
    rw [hangle, Real.sin_pi_div_six, sineQuarter, if_neg (by omega), if_pos rfl]
    norm_num [sineOne]

/-- sin(π - a) = sin a. -/
theorem sin_carrierAngle_half_sub {h j : ℕ} (hh : 0 < h) (hj : j ≤ h) :
    Real.sin (carrierAngle (2 * h) (h - j)) = Real.sin (carrierAngle (2 * h) j) := by
  have hh' : (h : ℝ) ≠ 0 := by positivity
  have hangle : carrierAngle (2 * h) (h - j) = Real.pi - carrierAngle (2 * h) j := by
    simp only [carrierAngle]; push_cast [hj]; field_simp
  rw [hangle, Real.sin_pi_sub]

/-- sin(2π - a) = -sin a. -/
theorem sin_carrierAngle_sub {m k : ℕ} (hm : 0 < m) (hk : k ≤ m) :
    Real.sin (carrierAngle m (m - k)) = -Real.sin (carrierAngle m k) := by
  have hm' : (m : ℝ) ≠ 0 := by positivity
  have hangle : carrierAngle m (m - k) = 2 * Real.pi - carrierAngle m k := by
    simp only [carrierAngle]; push_cast [hk]; field_simp
  rw [hangle, Real.sin_two_pi_sub]

/-- In the first half the model's sine and the real one are those of an angle of the first quarter. -/
theorem sineHalf_fold {h k : ℕ} (hh : 0 < h) (hk : k ≤ h) :
    ∃ j, 4 * j ≤ 2 * h ∧ sineHalf (2 * h) k = sineQuarter (2 * h) j ∧
      Real.sin (carrierAngle (2 * h) k) = Real.sin (carrierAngle (2 * h) j) := by
  by_cases hquarter : 4 * k ≤ 2 * h
  · exact ⟨k, hquarter, by rw [sineHalf, if_pos hquarter], rfl⟩
  · have hhalf : 2 * h / 2 = h := by omega
    exact ⟨h - k, by omega, by rw [sineHalf, if_neg hquarter, hhalf], (sin_carrierAngle_half_sub hh hk).symm⟩

/-! ## The rounding of an approximate sine -/

/-- A ten-millionth of a byte step in the units of `quantise`, a unit being 1/(20 · 10^30). The sine's error moves
0.35 v sin by less than 10^-16. -/
def tieMargin : ℕ := 2 * 10 ^ 24

/-- `sine` rounds as the real `r` does for every symbol: it is `r`, or near enough to it, while no multiple 0.35 v sine
comes near an integer. -/
def RoundsAs (sine : ℤ) (r : ℝ) : Prop :=
  (sine : ℝ) / 10 ^ 30 = r ∨
    |(sine : ℝ) / 10 ^ 30 - r| ≤ 1e-18 ∧
      ∀ v : ℕ, 0 < v → v ≤ 255 → ∀ n : ℤ, (tieMargin : ℤ) ≤ |v * (7 * sine) - n * (20 * sineOne : ℕ)|

theorem RoundsAs.neg {sine : ℤ} {r : ℝ} (h : RoundsAs sine r) : RoundsAs (-sine) (-r) := by
  rcases h with hexact | ⟨hclose, hfar⟩
  · exact .inl (by rw [← hexact]; push_cast; ring)
  · refine .inr ⟨?_, fun v hv hbound n => ?_⟩
    · rw [← abs_neg]
      convert hclose using 2
      push_cast
      ring
    · rw [← abs_neg]
      convert hfar v hv hbound (-n) using 2
      ring

/-- Numbers nearer to each other than to any integer have the same floor. -/
theorem floor_eq_of_far {x y δ : ℝ} (hfar : ∀ n : ℤ, δ ≤ |x - n|) (hclose : |x - y| < δ) : ⌊x⌋ = ⌊y⌋ := by
  have hlow := hfar ⌊x⌋
  have hhigh := hfar (⌊x⌋ + 1)
  have hfloor := Int.floor_le x
  have hlt := Int.lt_floor_add_one x
  rw [abs_of_nonneg (by linarith)] at hlow
  rw [abs_of_nonpos (by push_cast; linarith)] at hhigh
  push_cast at hhigh
  obtain ⟨habove, hbelow⟩ := abs_lt.mp hclose
  exact (Int.floor_eq_iff.mpr ⟨by linarith, by linarith⟩).symm

/-- The integer division of `quantise` is the floor of 0.35 v sine. -/
theorem quantise_eq_floor (v : Byte) (sine : ℤ) :
    quantise v sine = 128 + ⌊0.35 * (v.toNat : ℝ) * ((sine : ℝ) / 10 ^ 30)⌋ := by
  have hquotient : 0.35 * (v.toNat : ℝ) * ((sine : ℝ) / 10 ^ 30) =
      ((7 * v.toNat * sine : ℤ) : ℝ) / ((20 * sineOne : ℕ) : ℝ) := by
    norm_num [sineOne]; ring
  rw [hquotient, Int.floor_div_natCast, Int.floor_intCast]
  simp [quantise]

/-- 0.35 · 255 · 10^-18 is less than the margin. -/
theorem RoundsAs.floor_eq {sine : ℤ} {r : ℝ} (h : RoundsAs sine r) (v : Byte) :
    ⌊0.35 * (v.toNat : ℝ) * ((sine : ℝ) / 10 ^ 30)⌋ = ⌊0.35 * (v.toNat : ℝ) * r⌋ := by
  rcases h with hexact | ⟨hclose, hfar⟩
  · rw [hexact]
  rcases Nat.eq_zero_or_pos v.toNat with hzero | hpos
  · simp [hzero]
  have hbound : v.toNat ≤ 255 := Nat.le_of_lt_succ v.isLt
  refine floor_eq_of_far (δ := 1e-7) (fun n => ?_) ?_
  · have hscaled : 0.35 * (v.toNat : ℝ) * ((sine : ℝ) / 10 ^ 30) - n =
        ((v.toNat * (7 * sine) - n * (20 * sineOne : ℕ) : ℤ) : ℝ) / (2 * 10 ^ 31) := by
      norm_num [sineOne]; ring
    have hmargin : ((tieMargin : ℤ) : ℝ) ≤ |((v.toNat * (7 * sine) - n * (20 * sineOne : ℕ) : ℤ) : ℝ)| := by
      exact_mod_cast hfar v.toNat hpos hbound n
    rw [hscaled, abs_div, abs_of_pos (by norm_num : (0 : ℝ) < 2 * 10 ^ 31), le_div_iff₀ (by norm_num)]
    refine le_trans ?_ hmargin
    norm_num [tieMargin]
  · have hv : 0.35 * (v.toNat : ℝ) ≤ 90 := by
      have hsymbol : (v.toNat : ℝ) ≤ 255 := by exact_mod_cast hbound
      linarith
    rw [← mul_sub, abs_mul, abs_of_nonneg (by positivity)]
    calc 0.35 * (v.toNat : ℝ) * |(sine : ℝ) / 10 ^ 30 - r| ≤ 90 * 1e-18 :=
          mul_le_mul hv hclose (abs_nonneg _) (by norm_num)
      _ < 1e-7 := by norm_num

/-! ## The sine of every legal OVERSAMPLE -/

/-- The margin of R104 for every legal OVERSAMPLE: at each angle of the first quarter with an irrational sine, the
neighbours of 0.35 sine with denominators up to 255 keep their distance. A finite fact of the 31 values of OVERSAMPLE,
with one run of mediants for an angle in place of its 255 products. -/
theorem sineQuarter_farMultiples : ∀ os < 32, ∀ j < 7 * os, 4 * j ≤ 26 * os →
    RationalAngle (26 * os) j ∨
      farMultiples 255 tieMargin 16 1 (7 * sineQuarter (26 * os) j) 0 (20 * sineOne) = true := by
  decide +kernel

theorem sineQuarter_roundsAs {os j : ℕ} (hos : 1 ≤ os) (hlt : os < 32) (hj : 4 * j ≤ 26 * os) :
    RoundsAs (sineQuarter (26 * os) j) (Real.sin (carrierAngle (26 * os) j)) := by
  rcases sineQuarter_farMultiples os hlt j (by omega) hj with hrational | hfar
  · exact .inl (by simpa using sineQuarter_exact (by omega) hrational)
  · refine .inr ⟨by simpa [carrierAngle] using sineQuarter_close (by omega) hj, fun v hv hbound n => ?_⟩
    have hstart : Brackets (7 * sineQuarter (26 * os) j : ℕ) (20 * sineOne : ℕ) 1 (7 * sineQuarter (26 * os) j) 0
        (20 * sineOne) := ⟨0, 1, by simp, by simp, by simp⟩
    simpa using hstart.far hfar hv hbound n

/-- The model's sine rounds as the real sine of R102 in the whole period. -/
theorem carrierSine_roundsAs {os k : ℕ} (hos : 1 ≤ os) (hlt : os < 32) (hk : k ≤ 26 * os) :
    RoundsAs (carrierSine (26 * os) k) (Real.sin (carrierAngle (26 * os) k)) := by
  have hfold {i : ℕ} (hi : 2 * i ≤ 26 * os) :
      RoundsAs (sineHalf (26 * os) i) (Real.sin (carrierAngle (26 * os) i)) := by
    rw [show 26 * os = 2 * (13 * os) by omega] at hi ⊢
    obtain ⟨j, hj, hmodel, hreal⟩ := sineHalf_fold (by omega) (Nat.le_of_mul_le_mul_left hi (by norm_num))
    rw [hmodel, hreal, show 2 * (13 * os) = 26 * os by omega]
    exact sineQuarter_roundsAs hos hlt (by omega)
  unfold carrierSine
  split_ifs with hhalf
  · exact hfold hhalf
  · have hreal := sin_carrierAngle_sub (m := 26 * os) (by omega) hk
    rw [← neg_eq_iff_eq_neg] at hreal
    rw [← hreal]
    exact (hfold (by omega)).neg

/-- Below M the quantised value is a byte, which the clamp leaves. -/
theorem modulatorByte_toNat {os : BitVec 5} (v : Byte) {k : BitVec 10} (hk : k.toNat < 26 * os.toNat) :
    ((modulatorByte os v k).toNat : ℤ) = quantise v (carrierSine (26 * os.toNat) k.toNat) := by
  have hsine := abs_carrierSine_le (h := 13 * os.toNat) (k := k.toNat) (by omega) (by omega)
  rw [show 2 * (13 * os.toNat) = 26 * os.toNat by omega] at hsine
  obtain ⟨hlow, hhigh⟩ := quantise_range v hsine
  exact clampByte_toNat (y := quantise v (carrierSine (26 * os.toNat) k.toNat)) (by omega) (by omega)

/-! ## The obligations -/

/-- Settles O60, with no use of reachability: 127.5 + 1/2 is an integer, and 0.35 v sine has the floor of 0.35 v sin. -/
theorem outputBytesAreTheExactSine : Obligations.OutputBytesAreTheExactSine := by
  intro os v k hos hk _
  have hlt := os.isLt
  have hindex : (BitVec.ofNat 10 k).toNat = k := by
    rw [BitVec.toNat_ofNat, Nat.mod_eq_of_lt (by omega)]
  have hrounds := carrierSine_roundsAs hos hlt hk.le
  have hangle : 2 * Real.pi * k / (26 * os.toNat) = carrierAngle (26 * os.toNat) k := by simp [carrierAngle]
  have hshift : 127.5 + 0.35 * (v.toNat : ℝ) * Real.sin (carrierAngle (26 * os.toNat) k) + 1 / 2 =
      0.35 * (v.toNat : ℝ) * Real.sin (carrierAngle (26 * os.toNat) k) + (128 : ℤ) := by
    push_cast; ring
  rw [modulatorByte_toNat v (by rwa [hindex]), hindex, quantise_eq_floor, hrounds.floor_eq v, hangle, hshift,
    Int.floor_add_intCast, add_comm]

/-- Settles O45: OVERSAMPLE = 3 has M = 78, whose reachable phase indices are the multiples of 3. -/
theorem outputBytesAreTheExactSineAtOversample3 : Obligations.OutputBytesAreTheExactSineAtOversample3 := by
  intro v k hk hreach
  have hbyte := outputBytesAreTheExactSine 3#5 v k (by decide) hk hreach
  have hmod : (26 : ℝ) * ((3#5).toNat : ℝ) = 78 := by norm_num
  rwa [hmod] at hbyte

end Sys2Proof.Machine
end

section
/-! The zero crossings and the silent symbol (spec/41_carrier_modulator.md R104). -/

namespace Sys2Proof.Machine

theorem quantise_symbol_zero (sine : ℤ) : quantise 0#8 sine = 128 := by simp [quantise]
theorem quantise_sine_zero (v : Byte) : quantise v 0 = 128 := by simp [quantise]

theorem sineQuarter_zero {m : ℕ} (hm : 0 < m) : sineQuarter m 0 = 0 := by simp [sineQuarter, hm.ne]

theorem carrierSine_zero {m : ℕ} (hm : 0 < m) : carrierSine m 0 = 0 := by
  simp [carrierSine, sineHalf, sineQuarter_zero hm]

/-- At half the period the model folds the angle π onto the angle 0. -/
theorem carrierSine_half {h : ℕ} (hh : 0 < h) : carrierSine (2 * h) h = 0 := by
  have hfold : sineHalf (2 * h) h = sineQuarter (2 * h) 0 := by
    rw [sineHalf, if_neg (by omega), show 2 * h / 2 - h = 0 by omega]
  simp [carrierSine, hfold, sineQuarter_zero (show 0 < 2 * h by omega)]

theorem modulatorByte_of_sine_zero {os : BitVec 5} {k : BitVec 10} (v : Byte)
    (h : carrierSine (phaseModulus os) k.toNat = 0) : modulatorByte os v k = 128#8 := by
  rw [modulatorByte, h, quantise_sine_zero]
  rfl

/-- Settles O41: the product of the quantiser is 0, with the symbol or with the sine. -/
theorem silenceAndZeroCrossingsAre128 : Obligations.SilenceAndZeroCrossingsAre128 := by
  refine ⟨fun os k => ?_, fun os v hos => ⟨modulatorByte_of_sine_zero v ?_, modulatorByte_of_sine_zero v ?_⟩⟩
  · rw [modulatorByte, quantise_symbol_zero]
    rfl
  · exact carrierSine_zero (by rw [phaseModulus]; omega)
  · have hindex : (BitVec.ofNat 10 (13 * os.toNat)).toNat = 13 * os.toNat := by
      rw [BitVec.toNat_ofNat, Nat.mod_eq_of_lt (by omega)]
    have hmod : phaseModulus os = 2 * (13 * os.toNat) := by rw [phaseModulus]; omega
    rw [hindex, hmod]
    exact carrierSine_half (by omega)

end Sys2Proof.Machine
end

section
/-! The phase over a line and over half a line (spec/41_carrier_modulator.md R108), and the two channels of single-image
mode. -/

namespace Sys2Proof.Machine

/-! ## The phase -/

/-- A whole number of half lines is a whole number of carrier cycles: 1040 symbols are 600 periods (R108). -/
theorem phase_add_half_lines (halves os n : ℕ) :
    phaseStep * (halves * 1040 * os + n) % (26 * os) = phaseStep * n % (26 * os) := by
  have hcycles : phaseStep * (halves * 1040 * os + n) = phaseStep * n + 26 * os * (600 * halves) := by
    rw [phaseStep]; ring
  rw [hcycles, Nat.add_mul_mod_self_left]

/-! ## The symbols of the two channels -/

/-- In single-image mode the IMAGE positions of both channels read one image (spec/40_line_framer.md R83). -/
theorem symbolOf_imageB_of_single {s : State} (h : s.single = true) :
    symbolOf descImageB s = symbolOf descImageA s := by
  have heffHeight : effHeight s .b = effHeight s .a := by simp [effHeight, h]
  have hrequest : pixelRequest descImageB s = pixelRequest descImageA s := by
    simp [pixelRequest, srcChannel, descImageA, descImageB, h]
  have himage : inImage descImageB s = inImage descImageA s := by
    rw [inImage, inImage, descImageA, descImageB, heffHeight]
  rw [symbolOf, symbolOf, himage, hrequest]
  rfl

/-- The telemetry value depends on LINE only (R92). -/
theorem symbolOf_telemB (s : State) : symbolOf descTelemB s = symbolOf descTelemA s := by
  simp [symbolOf, inImage, fixedSymbol, descTelemA, descTelemB]

/-- The signal's symbol at a position of a segment. -/
theorem signalSymbol_segStart_add (s : State) (line : ℕ) {n : BitVec 3} {p : ℕ} (h : p < segLen n) :
    signalSymbol s line (segStart n + p) =
      symbolOf (segDescriptor n) { s with line := BitVec.ofNat 16 line, pos := BitVec.ofNat 10 p } := by
  unfold signalSymbol
  rw [segmentAt_segStart_add h]
  dsimp only
  rw [Nat.add_sub_cancel_left]
  exact symbolOf_congr ⟨rfl, rfl, rfl, rfl, rfl⟩ rfl rfl

/-- Two segments half a line apart whose operations agree carry the same symbols. -/
theorem signalSymbol_half_line_later {s : State} (line : ℕ) {n m : BitVec 3} {p : ℕ}
    (hstart : segStart m = segStart n + 1040) (hn : p < segLen n) (hm : p < segLen m)
    (hsame : ∀ t : State, t.single = s.single → symbolOf (segDescriptor m) t = symbolOf (segDescriptor n) t) :
    signalSymbol s line (segStart n + p + 1040) = signalSymbol s line (segStart n + p) := by
  rw [show segStart n + p + 1040 = segStart m + p by omega, signalSymbol_segStart_add s line hm,
    signalSymbol_segStart_add s line hn]
  exact hsame _ rfl

/-- The Image and Telemetry segments of the two channels, by offset. -/
theorem signalSymbol_channelB_of_single {s : State} (h : s.single = true) (line : ℕ) {offset : ℕ} (hlow : 86 ≤ offset)
    (hhigh : offset < 1040) : signalSymbol s line (offset + 1040) = signalSymbol s line offset := by
  rcases Nat.lt_or_ge offset 995 with himage | htelem
  · obtain ⟨p, rfl⟩ := Nat.exists_eq_add_of_le hlow
    have hp : p < 909 := by omega
    exact signalSymbol_half_line_later line (n := 2#3) (m := 6#3) rfl hp hp
      fun t ht => symbolOf_imageB_of_single (ht.trans h)
  · obtain ⟨p, rfl⟩ := Nat.exists_eq_add_of_le htelem
    have hp : p < 45 := by omega
    exact signalSymbol_half_line_later line (n := 3#3) (m := 7#3) rfl hp hp fun t _ => symbolOf_telemB t

/-- The signal's byte of sample `i` of the symbol at an offset of a line. -/
theorem signalByte_line (s : State) (line : ℕ) {offset i : ℕ} (hoffset : offset < 2080) (hi : i < s.oversample.toNat) :
    signalByte s ((line * 2080 + offset) * s.oversample.toNat + i) =
      modulatorByte s.oversample (signalSymbol s line offset)
        (BitVec.ofNat 10
          (phaseStep * ((line * 2080 + offset) * s.oversample.toNat + i) % (26 * s.oversample.toNat))) := by
  have hsymbol : ((line * 2080 + offset) * s.oversample.toNat + i) / s.oversample.toNat = line * 2080 + offset := by
    rw [Nat.add_comm, Nat.add_mul_div_right _ _ (by omega), Nat.div_eq_of_lt hi, Nat.zero_add]
  have hline : (line * 2080 + offset) / lineSymbols = line := by rw [lineSymbols]; omega
  have hrest : (line * 2080 + offset) % lineSymbols = offset := by rw [lineSymbols]; omega
  simp only [signalByte, hsymbol, hline, hrest, phaseModulus]

/-! ## The obligations -/

/-- Settles O55: before the first sample of a line stand whole lines. -/
theorem everyLineStartsAtPhaseZero : Obligations.EveryLineStartsAtPhaseZero := by
  intro s h hseg hpos hsub
  have hsn : s.sn.toNat = 2 * s.line.toNat * 1040 * s.oversample.toNat + 0 := by
    rw [h.sn_position, hseg, hpos, hsub, show segStart 0#3 = 0 from rfl, lineSymbols, BitVec.toNat_zero,
      BitVec.toNat_zero]
    ring
  apply BitVec.eq_of_toNat_eq
  rw [h.phase_sn, hsn, phaseModulus, phase_add_half_lines]
  simp

/-- Settles O57: 1040 symbols later the phase is the same and the symbol is the same. -/
theorem singleImageImageAndTelemetryBytesAreIdentical :
    Obligations.SingleImageImageAndTelemetryBytesAreIdentical := by
  intro s line offset i _ hsingle hlow hhigh hi
  have hphase : (line * 2080 + (offset + 1040)) * s.oversample.toNat + i =
      1 * 1040 * s.oversample.toNat + ((line * 2080 + offset) * s.oversample.toNat + i) := by ring
  rw [signalByte_line s line (by omega) hi, signalByte_line s line (by omega) hi,
    signalSymbol_channelB_of_single hsingle line hlow hhigh, hphase, phase_add_half_lines]

end Sys2Proof.Machine
end

section
/-! What a slot of a SampleStep leaves unchanged, and what it adds (spec/41_carrier_modulator.md R107, spec/20_memory.md
R52, R53). -/

namespace Sys2Proof.Machine

/-- What a slot leaves that waits: SN, PHASE, the position and the run's flags are those of before (R53). -/
def SampleWaits (s t : State) : Prop :=
  t.stream = s.stream ∧ t.sn = s.sn ∧ t.phase = s.phase ∧ t.line = s.line ∧ t.seg = s.seg ∧ t.pos = s.pos ∧
    t.sub = s.sub ∧ t.busy = s.busy ∧ t.done = s.done

/-- What a slot leaves that the sink accepts a byte in (R98, R100). -/
def SampleTaken (s t : State) : Prop :=
  ∃ byte, t.stream = s.stream ++ [byte] ∧ t.sn = s.sn + 1#32 ∧ t.phase = nextPhase s.oversample s.phase

theorem SampleWaits.refl (s : State) : SampleWaits s s := ⟨rfl, rfl, rfl, rfl, rfl, rfl, rfl, rfl, rfl⟩

theorem commitSample_taken (d : Descriptor) (byte : Byte) (s : State) : SampleTaken s (commitSample d byte s) :=
  ⟨byte, by simp, by simp, by simp⟩

theorem offerSample_waits_or_taken (d : Descriptor) (s : State) :
    SampleWaits s (offerSample d s) ∨ SampleTaken s (offerSample d s) := by
  cases ho : s.outHold with
  | none =>
    rw [offerSample_none ho]
    exact .inl (.refl s)
  | some byte =>
    rw [offerSample_some ho]
    split_ifs
    · exact .inr (commitSample_taken d byte s)
    · exact .inl (.refl s)

/-- The stages before the acceptance write hidden registers only (log 5). -/
theorem workSample_waits_or_taken (d : Descriptor) (s : State) :
    SampleWaits s (workSample d s) ∨ SampleTaken s (workSample d s) := by
  rcases workSample_cases d s with ⟨byte, ho, hw⟩ | ⟨-, -, -, hw⟩ | ⟨-, -, -, hw⟩ | ⟨-, -, hw⟩ <;> rw [hw]
  · rw [← offerSample_some ho]
    exact offerSample_waits_or_taken d s
  · exact .inl (by simp [SampleWaits])
  · simpa [SampleWaits, SampleTaken] using
      offerSample_waits_or_taken d (holdSample (takeResponse d (issueRequest d s)))
  · simpa [SampleWaits, SampleTaken] using offerSample_waits_or_taken d (holdSample (loadSymbol d s))

/-- Settles O36: a slot keeps what the record rules of `workSample` say, waits or takes one sample, and logs at most the
request of its position. -/
theorem segmentOperationsFrame : Obligations.SegmentOperationsFrame := by
  intro p hp s t hexec
  rw [exec_segmentOp hp] at hexec
  rcases sampleStep_next hexec with ⟨-, rfl⟩ | ⟨-, -, -, rfl⟩
  · simp
  · have hrequests : (workSample p.2 s).requests = s.requests ∨
        (workSample p.2 s).requests = s.requests ++ [pixelRequest p.2 s] :=
      or_iff_not_imp_left.mpr fun hnew => (workSample_requests hnew).2
    have hpixels (q : PixRequest) : pixelAt (workSample p.2 s) q = pixelAt s q := by
      rw [pixelAt, workSample_pixels, pixelAt]
    exact ⟨workSample_oversample _ _, workSample_single _ _, workSample_irqEn _ _, workSample_cfgErr _ _,
      workSample_errcode _ _, workSample_widthA _ _, workSample_widthB _ _, workSample_heightA _ _,
      workSample_heightB _ _, workSample_nlines _ _, hpixels, workSample_response _ _, workSample_pixelReady _ _,
      workSample_sinkReady _ _, workSample_changed _ _, workSample_inputs _ _, workSample_waits_or_taken p.2 s,
      hrequests⟩

end Sys2Proof.Machine
end

section
/-! The PHASE and POS values that a segment operation refuses by a fault (spec/41_carrier_modulator.md R100, R107;
logs 13, 14). -/

namespace Sys2Proof.Machine

/-! ## The phase indices a run reaches -/

theorem phaseReachable_iff (oversample : BitVec 5) (phase : BitVec 10) :
    phaseReachable oversample phase = true ↔
      phase.toNat < 26 * oversample.toNat ∧ phase.toNat % Nat.gcd 15 (26 * oversample.toNat) = 0 := by
  rw [phaseReachable, Bool.and_eq_true, decide_eq_true_eq, beq_iff_eq, phaseModulus, phaseStep]

/-- The reachable phase indices as the rows of a byte table: the multiples of the step below M = step · rows
(spec/42_modulator_table_os3.md R109, spec/43_modulator_table_os9.md R110). -/
theorem phaseReachable_iff_row {oversample : BitVec 5} {step rows : ℕ} (phase : BitVec 10)
    (hstep : Nat.gcd 15 (26 * oversample.toNat) = step) (hrows : 26 * oversample.toNat = step * rows) :
    phaseReachable oversample phase = true ↔ ∃ k : Fin rows, phase.toNat = step * k.val := by
  rw [phaseReachable_iff, hstep, hrows, ← Nat.dvd_iff_mod_eq_zero]
  constructor
  · rintro ⟨hlt, k, hk⟩
    exact ⟨⟨k, Nat.lt_of_mul_lt_mul_left (hk ▸ hlt)⟩, hk⟩
  · rintro ⟨k, hk⟩
    have hpos : 0 < step := hstep ▸ Nat.gcd_pos_of_pos_left _ (by norm_num)
    exact ⟨hk ▸ Nat.mul_lt_mul_of_pos_left k.isLt hpos, k, hk⟩

/-! ## The faults -/

theorem exec_segmentOp_phaseUnreachable {p : Instr × Descriptor} (hp : p ∈ segmentOps) {s : State}
    (hb : s.busy = true) (hphase : ¬ phaseReachable s.oversample s.phase = true) :
    exec p.1 s = .fault .phaseUnreachable := by
  rw [exec_segmentOp hp]
  simp [sampleStep, hb, hphase]

theorem exec_segmentOp_positionOutside {p : Instr × Descriptor} (hp : p ∈ segmentOps) {s : State}
    (hb : s.busy = true) (hphase : phaseReachable s.oversample s.phase = true) (hpos : p.2.len.toNat ≤ s.pos.toNat) :
    exec p.1 s = .fault .positionOutsideSegment := by
  rw [exec_segmentOp hp]
  simp [sampleStep, hb, hphase, hpos]

/-- Settles O38: `phaseReachable` is the condition of R100, and the position is looked at after the phase. -/
theorem unreachablePositionsFault : Obligations.UnreachablePositionsFault := by
  intro p hp s hb
  refine ⟨fun hphase => ?_, exec_segmentOp_positionOutside hp hb⟩
  exact exec_segmentOp_phaseUnreachable hp hb (mt (phaseReachable_iff _ _).mp hphase)

end Sys2Proof.Machine
end

section
/-! The byte tables of the spec (spec/42_modulator_table_os3.md R109): a row is the number whose digits in base 256 are
the bytes of the 256 symbols, so that one computed number stands for a row. -/

namespace Sys2Proof.Machine

/-! ## A row of a table -/

/-- The bytes of the symbols 0 to 255 at one sine (R103). -/
def quantisedBytes (sine : ℤ) : List ℕ :=
  (List.range 256).map fun v => (clampByte (quantise (BitVec.ofNat 8 v) sine)).toNat

/-- The row of a table at one sine, as one number. -/
def quantisedRow (sine : ℤ) : ℕ := Nat.ofDigits 256 (quantisedBytes sine)

theorem quantisedBytes_drop (sine : ℤ) (v : Byte) :
    (quantisedBytes sine).drop v.toNat =
      (clampByte (quantise v sine)).toNat :: (quantisedBytes sine).drop (v.toNat + 1) := by
  rw [List.drop_eq_getElem_cons (by simp [quantisedBytes, v.isLt])]
  simp [quantisedBytes]

theorem quantisedRow_shift (sine : ℤ) (v : Byte) :
    quantisedRow sine >>> (8 * v.toNat) = Nat.ofDigits 256 ((quantisedBytes sine).drop v.toNat) := by
  have hbytes : ∀ b ∈ quantisedBytes sine, b < 256 := by
    intro b hb
    obtain ⟨v, -, rfl⟩ := List.mem_map.mp hb
    exact BitVec.isLt _
  rw [Nat.shiftRight_eq_div_pow, pow_mul]
  exact Nat.ofDigits_div_pow_eq_ofDigits_drop v.toNat (by norm_num) _ hbytes

theorem rowByte_quantisedRow (sine : ℤ) (v : Byte) : rowByte (quantisedRow sine) v = clampByte (quantise v sine) := by
  rw [rowByte, quantisedRow_shift, quantisedBytes_drop, Nat.ofDigits_cons]
  refine BitVec.eq_of_toNat_eq ?_
  rw [BitVec.toNat_ofNat]
  have := (clampByte (quantise v sine)).isLt
  omega

theorem modulatorByte_eq_rowByte (oversample : BitVec 5) (v : Byte) (phase : BitVec 10) :
    modulatorByte oversample v phase =
      rowByte (quantisedRow (carrierSine (phaseModulus oversample) phase.toNat)) v := by
  rw [modulatorByte, rowByte_quantisedRow]

/-! ## The phases of a table's rows -/

section
variable {oversample : BitVec 5} {step rows : ℕ}

theorem exec_segmentOp_outside_rows (hstep : Nat.gcd 15 (26 * oversample.toNat) = step)
    (hrows : 26 * oversample.toNat = step * rows) :
    ∀ p ∈ segmentOps, ∀ s : State, s.busy = true → s.oversample = oversample →
      (∀ k : Fin rows, s.phase.toNat ≠ step * k.val) → exec p.1 s = .fault .phaseUnreachable := by
  rintro p hp s hb rfl hoff
  refine exec_segmentOp_phaseUnreachable hp hb fun hreach => ?_
  obtain ⟨k, hk⟩ := (phaseReachable_iff_row s.phase hstep hrows).mp hreach
  exact hoff k hk

theorem phase_row_of_inv (hstep : Nat.gcd 15 (26 * oversample.toNat) = step)
    (hrows : 26 * oversample.toNat = step * rows) :
    ∀ s : State, Inv s → s.oversample = oversample → ∃ k : Fin rows, s.phase.toNat = step * k.val := by
  rintro s hinv rfl
  exact (phaseReachable_iff_row s.phase hstep hrows).mp (phaseReachable_of_inv hinv)

end

/-! ## OVERSAMPLE = 3 -/

/-- Each row of R109 is the row computed at its phase index: 26 numbers, one sine each. -/
theorem tableOs3_getD : ∀ k < 26, tableOs3.getD k 0 = quantisedRow (carrierSine (phaseModulus 3#5) (3 * k)) := by
  decide +kernel

/-- Settles O43: M = 78 = 3 · 26, and each byte is read from the row of its phase index. -/
theorem outputBytesAreTheTableOfOversample3 : Obligations.OutputBytesAreTheTableOfOversample3 := by
  refine ⟨fun v k => ?_, exec_segmentOp_outside_rows (by decide) (by decide),
    phase_row_of_inv (by decide) (by decide)⟩
  have hindex : (BitVec.ofNat 10 (3 * k.val)).toNat = 3 * k.val := by
    rw [BitVec.toNat_ofNat, Nat.mod_eq_of_lt (by omega)]
  rw [modulatorByte_eq_rowByte, hindex, ← tableOs3_getD k k.isLt, tableByteOs3,
    Nat.mul_div_cancel_left _ (by norm_num)]

end Sys2Proof.Machine
end

section
/-! The byte table of OVERSAMPLE = 9 (spec/43_modulator_table_os9.md R110). -/

namespace Sys2Proof.Machine

/-- Each row of R110 is the row computed at its phase index: 78 numbers, one sine each. -/
theorem tableOs9_getD : ∀ k < 78, tableOs9.getD k 0 = quantisedRow (carrierSine (phaseModulus 9#5) (3 * k)) := by
  decide +kernel

/-- Settles O44: M = 234 = 3 · 78, and each byte is read from the row of its phase index. -/
theorem outputBytesAreTheTableOfOversample9 : Obligations.OutputBytesAreTheTableOfOversample9 := by
  refine ⟨fun v k => ?_, exec_segmentOp_outside_rows (by decide) (by decide),
    phase_row_of_inv (by decide) (by decide)⟩
  have hindex : (BitVec.ofNat 10 (3 * k.val)).toNat = 3 * k.val := by
    rw [BitVec.toNat_ofNat, Nat.mod_eq_of_lt (by omega)]
  rw [modulatorByte_eq_rowByte, hindex, ← tableOs9_getD k k.isLt, tableByteOs9,
    Nat.mul_div_cancel_left _ (by norm_num)]

end Sys2Proof.Machine
end

section
/-! The reads of the host bus (spec/44_host_commands.md R114 to R130): each is one line of the selector table and answers
a word. -/

namespace Sys2Proof.Machine

/-- A line of the selector table whose meaning is a response is a read of that word. -/
theorem readsAs_of_respond {addr : BitVec 8} {i : Instr} {value : State → Word} (hdecode : decodeRead addr = i)
    (hexec : ∀ s, exec i s = .next (respond (value s) s)) : ReadsAs addr i value :=
  ⟨fun w => (decode_read addr w).trans (congrArg Decoded.instr hdecode), hexec⟩

/-- SEGDESC[n] reads as the n-th word of the segment ROM (spec/44_host_commands.md R130). -/
theorem readsAs_segdesc (n : BitVec 3) :
    ReadsAs (BitVec.ofNat 8 (0x40 + 4 * n.toNat)) (.rdSegdesc n) (fun _ => (segDesc n).setWidth 32) :=
  readsAs_of_respond (by rw [← segdescOffset_eq_ofNat, decodeRead_segdescOffset]) fun _ => rfl

/-! ## The obligations -/

/-- Settles O14: the two words show the flags at the bits of R114 and R115. -/
theorem readsOfControlAndStatus : Obligations.ReadsOfControlAndStatus :=
  ⟨readsAs_of_respond (value := ctrlWord) rfl fun _ => rfl, readsAs_of_respond (value := statusWord) rfl fun _ => rfl⟩

/-- Settles O15: the registers are read as they stand, and the reset state has them at 0. -/
theorem readsOfConfiguration : Obligations.ReadsOfConfiguration :=
  ⟨readsAs_of_respond rfl fun _ => rfl, readsAs_of_respond rfl fun _ => rfl, readsAs_of_respond rfl fun _ => rfl,
   readsAs_of_respond rfl fun _ => rfl, rfl, rfl, rfl, rfl⟩

/-- Settles O16: the registers are read as they stand, the position's three fields at their bits. -/
theorem readsOfProgress : Obligations.ReadsOfProgress :=
  ⟨readsAs_of_respond rfl fun _ => rfl, readsAs_of_respond rfl fun _ => rfl,
   readsAs_of_respond (value := positionWord) rfl fun _ => rfl, readsAs_of_respond rfl fun _ => rfl,
   readsAs_of_respond rfl fun _ => rfl⟩

/-- Settles O17: ID shows OVERSAMPLE, which a Reset keeps, and each descriptor is a word of the ROM. -/
theorem readsOfConstants : Obligations.ReadsOfConstants :=
  ⟨readsAs_of_respond (value := fun s => idWord s.oversample) rfl fun _ => rfl, resetBlock_oversample,
   readsAs_segdesc 0#3, readsAs_segdesc 1#3, readsAs_segdesc 2#3, readsAs_segdesc 3#3,
   readsAs_segdesc 4#3, readsAs_segdesc 5#3, readsAs_segdesc 6#3, readsAs_segdesc 7#3⟩

end Sys2Proof.Machine
end

section
/-! The writes of the host bus but CTRL (spec/44_host_commands.md R116 to R122, R131), and what clears DONE and CFG_ERR
(spec/10_state.md R31, R32). -/

namespace Sys2Proof.Machine

/-! ## Writes by their lines of the selector table -/

/-- A line of the selector table whose meaning ends without a word is a write of that effect. -/
theorem writesAs_of_acknowledge {addr : BitVec 8} {i : Word → Instr} {post : Word → State → State}
    (hdecode : ∀ w, decodeWrite addr w = i w) (hexec : ∀ w s, exec (i w) s = .next (acknowledge (post w s))) :
    WritesAs addr i post :=
  fun w => ⟨(decode_write addr w).trans (congrArg Decoded.instr (hdecode w)), hexec w⟩

/-- BUSY chooses between the old state and the update, and either is acknowledged. -/
theorem writeIdle_eq (f : State → State) (s : State) : writeIdle f s = acknowledge (if s.busy then s else f s) := by
  cases hb : s.busy with
  | true => rw [writeIdle_busy f hb, if_pos rfl]
  | false => rw [writeIdle_idle f hb, if_neg Bool.false_ne_true]

/-- A line of the selector table whose meaning is a configuration register's write (spec/70_reset_and_hazards.md R151). -/
theorem writesAs_of_writeIdle {addr : BitVec 8} {i : Word → Instr} {update : Word → State → State}
    (hdecode : ∀ w, decodeWrite addr w = i w) (hexec : ∀ w s, exec (i w) s = .next (writeIdle (update w) s)) :
    WritesAs addr i (fun w s => if s.busy then s else update w s) :=
  writesAs_of_acknowledge hdecode fun w s => (hexec w s).trans (congrArg _ (writeIdle_eq (update w) s))

/-- The write to SEGDESC[n] is without effect (spec/44_host_commands.md R131). -/
theorem writesAs_segdesc (n : BitVec 3) :
    WritesAs (BitVec.ofNat 8 (0x40 + 4 * n.toNat)) (.wrRoSegdesc n) (fun _ s => s) :=
  writesAs_of_acknowledge (fun w => by rw [← segdescOffset_eq_ofNat, decodeWrite_segdescOffset]) fun _ _ => rfl

/-! ## DONE -/

/-- No slot clears DONE: the advance keeps it or sets it. -/
theorem offerSample_keeps_done (d : Descriptor) {s : State} (h : s.done = true) : (offerSample d s).done = true := by
  cases ho : s.outHold with
  | none => rwa [offerSample_none ho]
  | some byte =>
    rw [offerSample_some ho]
    split_ifs
    · rcases commitSample_flags d byte s with ⟨-, hkeep⟩ | ⟨-, -, hset⟩
      · exact hkeep.trans h
      · exact hset
    · exact h

theorem workSample_keeps_done (d : Descriptor) {s : State} (h : s.done = true) : (workSample d s).done = true := by
  rcases workSample_cases d s with ⟨byte, ho, hw⟩ | ⟨-, -, -, hw⟩ | ⟨-, -, -, hw⟩ | ⟨-, -, hw⟩ <;> rw [hw]
  · rw [← offerSample_some ho]
    exact offerSample_keeps_done d h
  · simpa using h
  · exact offerSample_keeps_done d (by simpa using h)
  · exact offerSample_keeps_done d (by simpa using h)

/-- DONE or CFG_ERR falls. -/
def ClearsOutcome (s t : State) : Prop := (s.done = true ∧ t.done = false) ∨ (s.cfgErr = true ∧ t.cfgErr = false)

theorem not_clearsOutcome {s t : State} (hdone : s.done = true → t.done = true) (hcfg : t.cfgErr = s.cfgErr) :
    ¬ ClearsOutcome s t := by
  rintro (⟨hset, hclear⟩ | ⟨hset, hclear⟩)
  · exact flag_conflict hclear (hdone hset)
  · exact flag_conflict hclear (hcfg.trans hset)

/-- Only a Reset and a START that is taken clear DONE or CFG_ERR (spec/44_host_commands.md R131). -/
theorem reset_or_start_of_clearsOutcome {s t : State} (h : StepEffect s t) (hclear : ClearsOutcome s t) :
    (∃ same rest, s.inputs = .reset same :: rest) ∨ ∃ w rest, TakesStart w rest s := by
  cases h with
  | quiet => exact absurd hclear (not_clearsOutcome id rfl)
  | configure => exact absurd hclear (not_clearsOutcome id rfl)
  | startRejected w rest code hstart => exact .inr ⟨w, rest, hstart⟩
  | startAccepted w rest hstart => exact .inr ⟨w, rest, hstart⟩
  | sample inputs =>
    exact absurd hclear (not_clearsOutcome (fun hset => workSample_keeps_done _ hset) (workSample_cfgErr _ _))
  | reset same rest inputs hin => exact .inl ⟨same, rest, hin⟩

/-! ## The obligations -/

/-- Settles O19: the eight writes are acknowledged and no more, and of the effects of a step only a Reset and START clear
the two flags. -/
theorem readOnlyRegistersIgnoreWrites : Obligations.ReadOnlyRegistersIgnoreWrites :=
  ⟨writesAs_of_acknowledge (fun _ => rfl) fun _ _ => rfl, writesAs_of_acknowledge (fun _ => rfl) fun _ _ => rfl,
   writesAs_of_acknowledge (fun _ => rfl) fun _ _ => rfl, writesAs_of_acknowledge (fun _ => rfl) fun _ _ => rfl,
   writesAs_of_acknowledge (fun _ => rfl) fun _ _ => rfl, writesAs_of_acknowledge (fun _ => rfl) fun _ _ => rfl,
   writesAs_of_acknowledge (fun _ => rfl) fun _ _ => rfl, writesAs_segdesc,
   fun _ _ hstep hclear => reset_or_start_of_clearsOutcome (stepEffect_of_step hstep) hclear⟩

/-- Settles O20: the four writes are of the one form that BUSY = 1 shuts out. -/
theorem configurationWrites : Obligations.ConfigurationWrites :=
  ⟨writesAs_of_writeIdle (fun _ => rfl) fun _ _ => rfl, writesAs_of_writeIdle (fun _ => rfl) fun _ _ => rfl,
   writesAs_of_writeIdle (fun _ => rfl) fun _ _ => rfl, writesAs_of_writeIdle (fun _ => rfl) fun _ _ => rfl⟩

end Sys2Proof.Machine
end

section
/-! The write to CTRL (spec/44_host_commands.md R112, R113), and what every host operation keeps (R111). -/

namespace Sys2Proof.Machine

/-! ## The three cases of a CTRL write -/

theorem writeCtrl_busy {s : State} (w : Word) (hb : s.busy = true) :
    writeCtrl w s = acknowledge { s with irqEn := w.getLsbD 2 } := by
  rcases writeCtrl_cases w s with ⟨-, hw⟩ | ⟨hidle, -, -⟩ | ⟨hidle, -, -⟩
  · exact hw
  · exact flag_conflict hidle hb
  · exact flag_conflict hidle hb

theorem writeCtrl_no_start {s : State} {w : Word} (hidle : s.busy = false) (hstop : w.getLsbD 0 = false) :
    writeCtrl w s = { acknowledge { s with irqEn := w.getLsbD 2 } with single := w.getLsbD 1 } := by
  rcases writeCtrl_cases w s with ⟨hb, -⟩ | ⟨-, -, hw⟩ | ⟨-, hgo, -⟩
  · exact flag_conflict hidle hb
  · exact hw
  · exact flag_conflict hstop hgo

theorem writeCtrl_start {s : State} {w : Word} (hidle : s.busy = false) (hgo : w.getLsbD 0 = true) :
    writeCtrl w s = startRun { acknowledge { s with irqEn := w.getLsbD 2 } with single := w.getLsbD 1 } := by
  rcases writeCtrl_cases w s with ⟨hb, -⟩ | ⟨-, hstop, -⟩ | ⟨-, -, hw⟩
  · exact flag_conflict hidle hb
  · exact flag_conflict hstop hgo
  · exact hw

/-! ## START -/

theorem writeCtrl_accepted {s : State} {w : Word} (hidle : s.busy = false) (hgo : w.getLsbD 0 = true)
    (hcheck : checkConfig (checkedState w s.inputs s) = none) :
    writeCtrl w s = beginRun (checkedState w s.inputs s) :=
  (writeCtrl_start hidle hgo).trans (startRun_accepted hcheck)

theorem writeCtrl_rejected {s : State} {w : Word} {code : BitVec 4} (hidle : s.busy = false)
    (hgo : w.getLsbD 0 = true) (hcheck : checkConfig (checkedState w s.inputs s) = some code) :
    writeCtrl w s = raiseConfigError code (checkedState w s.inputs s) :=
  (writeCtrl_start hidle hgo).trans (startRun_rejected hcheck)

/-- The first state of a run, with BUSY and DONE as the tests of its line count. -/
theorem beginRun_eq (s : State) :
    beginRun s =
      { s with
        nlines := runLines s, line := 0#16, seg := 0#3, pos := 0#10, sub := 0#5, sn := 0#32, phase := 0#10
        changed := [], busy := runLines s != 0#16, done := runLines s == 0#16 } := by
  have hbusy : decide (runLines s ≠ 0#16) = (runLines s != 0#16) := decide_not
  unfold beginRun
  rw [hbusy]
  rfl

/-! ## The frame of a host operation -/

/-- Only the enables, the configuration and the bus response differ. -/
def Reconfigures (s t : State) : Prop :=
  ∃ (irqEn single : Bool) (widthA widthB heightA heightB : Half) (response : Option Word),
    t = { s with
      irqEn := irqEn, single := single, widthA := widthA, widthB := widthB, heightA := heightA, heightB := heightB,
      response := response }

theorem reconfigures_respond (v : Word) (s : State) : Reconfigures s (respond v s) := ⟨_, _, _, _, _, _, _, rfl⟩

theorem reconfigures_acknowledge (s : State) : Reconfigures s (acknowledge s) := ⟨_, _, _, _, _, _, _, rfl⟩

theorem reconfigures_writeIdle {w : Word} {f : State → State} (hf : isConfigUpdate w f) (s : State) :
    Reconfigures s (writeIdle f s) := by
  unfold writeIdle
  split_ifs
  · exact reconfigures_acknowledge s
  · rcases hf with rfl | rfl | rfl | rfl <;> exact ⟨_, _, _, _, _, _, _, rfl⟩

/-- Of the CTRL writes only START reaches further. -/
theorem reconfigures_writeCtrl {w : Word} {s : State} (h : ¬ (w.getLsbD 0 = true ∧ s.busy = false)) :
    Reconfigures s (writeCtrl w s) := by
  rcases writeCtrl_cases w s with ⟨-, hw⟩ | ⟨-, -, hw⟩ | ⟨hidle, hgo, -⟩
  · exact ⟨_, _, _, _, _, _, _, hw⟩
  · exact ⟨_, _, _, _, _, _, _, hw⟩
  · exact absurd ⟨hgo, hidle⟩ h

@[simp] theorem startRun_response (s : State) : (startRun s).response = s.response := by
  rcases startRun_cases s with ⟨code, -, ht⟩ | ⟨-, ht⟩ <;> simp [ht]

@[simp] theorem writeCtrl_response (w : Word) (s : State) : (writeCtrl w s).response = none := by
  rcases writeCtrl_cases w s with ⟨-, hw⟩ | ⟨-, -, hw⟩ | ⟨-, -, hw⟩ <;> simp [hw]

@[simp] theorem writeIdle_response (f : State → State) (s : State) : (writeIdle f s).response = none := by
  rw [writeIdle_eq, acknowledge_response]

/-- A write completes without a word, and reconfigures at most unless it is a START that is taken. -/
theorem exec_write_frame {addr : BitVec 8} {w : Word} {s : State} {i : Instr} (h : writesLike addr w s i) :
    ∃ t, exec i s = .next t ∧ t.response = none ∧
      (¬ (addr = 0x00#8 ∧ w.getLsbD 0 = true ∧ s.busy = false) → Reconfigures s t) := by
  rcases h with ⟨haddr, ht⟩ | ⟨f, hf, ht⟩ | ht
  · exact ⟨_, ht, writeCtrl_response w s, fun hno => reconfigures_writeCtrl fun hstart => hno ⟨haddr, hstart⟩⟩
  · exact ⟨_, ht, writeIdle_response f s, fun _ => reconfigures_writeIdle hf s⟩
  · exact ⟨_, ht, rfl, fun _ => reconfigures_acknowledge s⟩

/-- Every request completes: a read answers a word and no more, a write answers none. -/
theorem exec_decodeRequest_frame (r : HbRequest) (s : State) :
    ∃ t, exec (decodeRequest r) s = .next t ∧ (r.we = false → ∃ rdata, t = respond rdata s) ∧
      (r.we = true → t.response = none) ∧
      (¬ (r.we = true ∧ r.addr = 0x00#8 ∧ r.wdata.getLsbD 0 = true ∧ s.busy = false) → Reconfigures s t) := by
  rcases exec_decodeRequest r s with ⟨hread, v, ht⟩ | ⟨hwrite, hlike⟩
  · exact ⟨_, ht, fun _ => ⟨v, rfl⟩, flag_conflict hread, fun _ => reconfigures_respond v s⟩
  · obtain ⟨t, ht, hresponse, hkeep⟩ := exec_write_frame hlike
    exact ⟨t, ht, (flag_conflict · hwrite), fun _ => hresponse, fun hno => hkeep fun hstart => hno ⟨hwrite, hstart⟩⟩

/-! ## The obligations -/

/-- Settles O21: the two cases of a CTRL write in which START does not act. -/
theorem controlWritesSetTheEnables : Obligations.ControlWritesSetTheEnables := by
  intro w s
  have hexec : exec (.wrCtrl w) s = .next (writeCtrl w s) := rfl
  refine ⟨fun hb => ?_, fun hidle hstop => ?_⟩
  · rw [hexec, writeCtrl_busy w hb]
    rfl
  · rw [hexec, writeCtrl_no_start hidle hstop]
    rfl

/-- Settles O22: the check of the widths decides between the first state of a run and the two codes of ConfigError. -/
theorem startBeginsARunOrRecordsTheError : Obligations.StartBeginsARunOrRecordsTheError := by
  intro w s hidle hgo
  have hexec : exec (.wrCtrl w) s = .next (writeCtrl w s) := rfl
  have hcode := checkConfig_checkedState_some_iff w s.inputs s
  refine ⟨fun hwa hwb => ⟨[], ?_⟩, fun hwa => ?_, fun hwa hdouble hwb => ?_⟩
  · have hlegal := (checkConfig_checkedState_none_iff w s.inputs s).mpr ⟨hwa, hwb⟩
    rw [hexec, writeCtrl_accepted hidle hgo hlegal, beginRun_eq]
    rfl
  · rw [hexec, writeCtrl_rejected hidle hgo ((hcode 1#4).mpr (.inl ⟨hwa, rfl⟩))]
    rfl
  · rw [hexec, writeCtrl_rejected hidle hgo ((hcode 2#4).mpr (.inr ⟨hwa, hdouble, hwb, rfl⟩))]
    rfl

/-- Settles O23: a read answers a word, and a write that is no START reconfigures at most. -/
theorem hostOperationsKeepTheRun : Obligations.HostOperationsKeepTheRun := by
  intro r s
  obtain ⟨t, ht, hread, hwrite, hkeep⟩ := exec_decodeRequest_frame r s
  refine ⟨_, t, (decode_hb_eq_instr_iff r _).mpr rfl, ht, hread, hwrite, fun hno => ?_⟩
  obtain ⟨_, _, _, _, _, _, _, rfl⟩ := hkeep hno
  simp [pixelAt]

end Sys2Proof.Machine
end

section
/-! No error arises in a run (spec/60_exceptions.md R133, R138): the one exception, ConfigError, is recorded by START
and is no fault of a step. -/

namespace Sys2Proof.Machine

/-- Settles O50: only a sample of an unreachable position or phase can fault, and the invariant keeps POS inside its
segment (`sampleStep_answers`) and PHASE among the phases a run reaches (`phaseReachable_of_inv`); every host request,
Reset and event of the environment answers (`step_answers`). -/
theorem noErrorArisesInARun : Obligations.NoErrorArisesInARun := by
  intro s hinv
  exact step_answers hinv

end Sys2Proof.Machine
end

section
/-! Reset (spec/70_reset_and_hazards.md R147, R148), and the configuration of a run (R151, spec/20_memory.md R60). -/

namespace Sys2Proof.Machine

theorem TakesStart.idle {w : Word} {rest : List Input} {s : State} (h : TakesStart w rest s) : s.busy = false := by
  obtain ⟨-, hidle, -⟩ := h
  exact hidle

/-! ## The obligations -/

/-- Settles O47: the step is `resetBlock`, with an event of the same time put back in front of the inputs. -/
theorem resetAbandonsTheRun : Obligations.ResetAbandonsTheRun := by
  intro s rest same hin
  exact ⟨_, step_reset hin, rfl, rfl, rfl, rfl, rfl, rfl, rfl, rfl, rfl, rfl, rfl, rfl, rfl, rfl, rfl, rfl, rfl, rfl,
    rfl, rfl, rfl, rfl, rfl, rfl, rfl, rfl, fun hnone => by rw [hnone]; rfl, fun e hsome => by rw [hsome]; rfl⟩

/-- Settles O54: of the effects of a step, BUSY = 1 shuts out a configuration write and START, and a SampleStep's slot
leaves the configuration. -/
theorem configurationIsFrozenDuringARun : Obligations.ConfigurationIsFrozenDuringARun := by
  intro s t hstep hb hno
  cases stepEffect_of_step hstep with
  | quiet => exact ⟨rfl, rfl, rfl, rfl, rfl, rfl, rfl⟩
  | configure hidle => exact flag_conflict hidle hb
  | startRejected w rest code hstart => exact flag_conflict hstart.idle hb
  | startAccepted w rest hstart => exact flag_conflict hstart.idle hb
  | sample => simp
  | reset same rest inputs hin => exact absurd hin (hno same rest)

end Sys2Proof.Machine
end

section
/-! SN determines LINE and PHASE (spec/70_reset_and_hazards.md R156). -/

namespace Sys2Proof.Machine

/-- The position's symbol offset lies within the line (spec/40_line_framer.md R96). -/
theorem symbolOffset_lt {s : State} (h : Inv s) : segStart s.seg + s.pos.toNat < lineSymbols :=
  (Nat.add_lt_add_left h.pos_lt _).trans_le (segStart_add_segLen_le s.seg)

/-- The whole lines among the symbols before the position. -/
theorem sn_div_line {s : State} (h : Inv s) : s.sn.toNat / (lineSymbols * s.oversample.toNat) = s.line.toNat := by
  calc s.sn.toNat / (lineSymbols * s.oversample.toNat)
      = s.sn.toNat / s.oversample.toNat / lineSymbols := by rw [Nat.div_div_eq_div_mul, Nat.mul_comm]
    _ = (s.line.toNat * lineSymbols + (segStart s.seg + s.pos.toNat)) / lineSymbols := by rw [sn_div_oversample h]
    _ = s.line.toNat := by
      rw [Nat.add_comm, Nat.add_mul_div_right _ _ (by decide), Nat.div_eq_of_lt (symbolOffset_lt h), Nat.zero_add]

/-- Settles O56: the line is SN's whole lines, and the phase is the invariant's own. -/
theorem snDeterminesLineAndPhase : Obligations.SnDeterminesLineAndPhase :=
  fun _ h => ⟨(sn_div_line h).symm, h.phase_sn⟩

end Sys2Proof.Machine
end

section
/-! A changed pixel (spec/70_reset_and_hazards.md R153, spec/93_implementation_defined.md U2; log 7), and the stalls of
the sink and of the pixel source (R155, spec/20_memory.md R53). -/

namespace Sys2Proof.Machine

/-! ## The byte of a slot -/

/-- The slot's state before the sink is asked: the symbol is loaded or read, and its byte is held. -/
def presentSample (d : Descriptor) (s : State) : State :=
  holdSample (if needsPixel d s then takeResponse d (issueRequest d s) else loadSymbol d s)

/-- A slot that need not wait for the pixel source offers its byte. -/
theorem workSample_eq_offer_present {d : Descriptor} {s : State} (ho : s.outHold = none)
    (hsource : s.pixelReady = true) : workSample d s = offerSample d (presentSample d s) := by
  unfold presentSample
  cases hn : needsPixel d s with
  | true => exact workSample_answered ho hn hsource
  | false => exact workSample_no_pixel ho hn

@[simp] theorem presentSample_sinkReady (d : Descriptor) (s : State) :
    (presentSample d s).sinkReady = s.sinkReady := by
  unfold presentSample
  cases needsPixel d s <;> simp

/-- Up to the held byte, a slot does not look at the sink. -/
theorem presentSample_sinkReady_update (d : Descriptor) (s : State) (ready : Bool) :
    presentSample d { s with sinkReady := ready } = { presentSample d s with sinkReady := ready } := by
  have hneeds : needsPixel d { s with sinkReady := ready } = needsPixel d s := rfl
  unfold presentSample
  rw [hneeds, takeResponse_issueRequest, takeResponse_issueRequest, loadSymbol_eq, loadSymbol_eq]
  cases needsPixel d s <;> rfl

/-- A slot that finds a byte held only offers it. -/
theorem workSample_presentSample (d : Descriptor) (s : State) :
    workSample d (presentSample d s) = offerSample d (presentSample d s) := by
  have hheld : (presentSample d s).outHold = some _ := holdSample_outHold _
  rw [workSample_held hheld, offerSample_some hheld]

/-! ## The request of a slot -/

/-- A request is issued once (spec/20_memory.md R52). -/
theorem issueRequest_issueRequest (d : Descriptor) (s : State) :
    issueRequest d (issueRequest d s) = issueRequest d s := by
  refine issueRequest_pending ?_
  cases hp : s.pixPending with
  | false => rw [issueRequest_new hp]
  | true => rwa [issueRequest_pending hp]

/-- The request goes out whether or not the pixel source answers. -/
theorem issueRequest_pixelReady_update (d : Descriptor) (s : State) (ready : Bool) :
    issueRequest d { s with pixelReady := ready } = { issueRequest d s with pixelReady := ready } := by
  unfold issueRequest
  split_ifs <;> rfl

/-- The position of an outstanding request needs its pixel still. -/
theorem needsPixel_issueRequest (d : Descriptor) (s : State) : needsPixel d (issueRequest d s) = needsPixel d s := by
  unfold issueRequest
  split_ifs <;> rfl

/-- The slot after the request is that of a source that answers at once. -/
theorem workSample_issueRequest {d : Descriptor} {s : State} (ho : s.outHold = none) (hn : needsPixel d s = true)
    (hsource : s.pixelReady = true) : workSample d (issueRequest d s) = workSample d s := by
  rw [workSample_answered ho hn hsource,
    workSample_answered (by rw [issueRequest_outHold, ho]) (by rw [needsPixel_issueRequest, hn])
      (by rw [issueRequest_pixelReady, hsource]),
    issueRequest_issueRequest]

/-! ## What enables a slot -/

theorem Enabled.congr {d : Descriptor} {s t : State} (h : Enabled d s) (hbusy : t.busy = s.busy)
    (hoversample : t.oversample = s.oversample) (hphase : t.phase = s.phase) (hpos : t.pos = s.pos) : Enabled d t := by
  unfold Enabled
  rwa [hbusy, hoversample, hphase, hpos]

theorem enabled_presentSample {d : Descriptor} {s : State} (h : Enabled d s) : Enabled d (presentSample d s) := by
  unfold presentSample
  cases needsPixel d s <;> exact h.congr (by simp) (by simp) (by simp) (by simp)

theorem enabled_issueRequest {d : Descriptor} {s : State} (h : Enabled d s) : Enabled d (issueRequest d s) :=
  h.congr (issueRequest_busy d s) (issueRequest_oversample d s) (issueRequest_phase d s) (issueRequest_pos d s)

/-! ## The obligations -/

/-- Settles O34: the answered request latches the free value, and an accepted START begins a run without marks. -/
theorem changedPixelReadsAFreeValue : Obligations.ChangedPixelReadsAFreeValue := by
  refine ⟨fun p hp s hready hn hsource hmarked => ?_, fun w s hidle hgo hwa hwb => ?_⟩
  · obtain ⟨⟨hbusy, hphase, hpos⟩, ho, hsink⟩ := hready
    rw [exec_segmentOp hp, sampleStep_pixel hbusy hphase hpos ho hsink hsource hn, takeResponse_issueRequest]
    simp only [if_pos hmarked]
    exact congrArg _ (commitSample_eq_afterSample
      (s := { s with
        pixPending := false
        requests := if s.pixPending then s.requests else s.requests ++ [pixelRequest p.2 s]
        freeNext := s.freeNext + 1 }) ho _)
  · have hlegal := (checkConfig_checkedState_none_iff w s.inputs s).mpr ⟨hwa, hwb⟩
    refine ⟨writeCtrl w s, rfl, ?_⟩
    rw [writeCtrl_accepted hidle hgo hlegal]
    rfl

/-- Settles O39: a silent sink leaves the slot's byte held and a silent pixel source its request outstanding, and the
next slot goes on from there as the undisturbed slot does. -/
theorem stallsDoNotChangeTheSample : Obligations.StallsDoNotChangeTheSample := by
  intro p hp s t henabled ho hexec
  have henabled' : Enabled p.2 { s with pixelReady := true, sinkReady := true } := henabled
  rw [exec_segmentOp_enabled hp henabled'] at hexec
  refine ⟨⟨presentSample p.2 { s with pixelReady := true, sinkReady := false }, ?_, ?_⟩, fun hn =>
    ⟨issueRequest p.2 { s with pixelReady := false, sinkReady := true }, ?_, ?_⟩⟩
  · rw [exec_segmentOp_enabled hp (by exact henabled), workSample_eq_offer_present (by exact ho) rfl,
      offerSample_silent (presentSample_sinkReady _ _)]
  · rw [← presentSample_sinkReady_update, exec_segmentOp_enabled hp (enabled_presentSample henabled'),
      workSample_presentSample, ← workSample_eq_offer_present (by exact ho) rfl, hexec]
  · rw [exec_segmentOp_enabled hp (by exact henabled), workSample_silent_source (by exact ho) (by exact hn) rfl]
  · rw [← issueRequest_pixelReady_update, exec_segmentOp_enabled hp (enabled_issueRequest henabled'),
      workSample_issueRequest (by exact ho) (by exact hn) rfl, hexec]

end Sys2Proof.Machine
end

section
/-! Single-image mode and image B (spec/70_reset_and_hazards.md R157, spec/40_line_framer.md R83): every stage of a
SampleStep commutes with a change of image B's registers, pixels and marks. -/

namespace Sys2Proof.Machine

/-- The state with another image B: its registers, and a pixel list and marks for both images. -/
def withImageB (width height : Half) (pixels : List Host.Cell) (marks : List Nat) (s : State) : State :=
  { s with widthB := width, heightB := height, pixels := pixels, changed := marks }

/-- The pixel list and the marks agree with the state's on image A. -/
def AgreeOnImageA (pixels : List Host.Cell) (marks : List Nat) (s : State) : Prop :=
  ∀ q : PixRequest, q.ch = .a →
    memRead pixels (pixelAddr q) = pixelAt s q ∧ (pixelAddr q ∈ marks ↔ pixelAddr q ∈ s.changed)

/-- In single-image mode every request is for image A (spec/40_line_framer.md R83). -/
theorem pixelRequest_ch_of_single (d : Descriptor) {s : State} (h : s.single = true) : (pixelRequest d s).ch = .a := by
  cases hch : d.ch <;> simp [pixelRequest, srcChannel, hch, h]

section
variable (width height : Half) (pixels : List Host.Cell) (marks : List Nat)

/-! ## The stages that do not look at the images -/

theorem advance_withImageB (d : Descriptor) (s : State) :
    advance d (withImageB width height pixels marks s) = withImageB width height pixels marks (advance d s) := by
  simp only [advance, apply_ite (withImageB width height pixels marks)]
  rfl

theorem commitSample_withImageB (d : Descriptor) (byte : Byte) (s : State) :
    commitSample d byte (withImageB width height pixels marks s) =
      withImageB width height pixels marks (commitSample d byte s) := by
  rw [commitSample, commitSample, ← advance_withImageB]
  rfl

theorem offerSample_withImageB (d : Descriptor) (s : State) :
    offerSample d (withImageB width height pixels marks s) =
      withImageB width height pixels marks (offerSample d s) := by
  cases ho : s.outHold with
  | none => rw [offerSample_none ho, offerSample_none (by exact ho)]
  | some byte =>
    rw [offerSample_some ho, offerSample_some (byte := byte) (by exact ho), commitSample_withImageB,
      apply_ite (withImageB width height pixels marks)]
    rfl

theorem holdSample_withImageB (s : State) :
    holdSample (withImageB width height pixels marks s) = withImageB width height pixels marks (holdSample s) := rfl

theorem issueRequest_withImageB (d : Descriptor) (s : State) :
    issueRequest d (withImageB width height pixels marks s) =
      withImageB width height pixels marks (issueRequest d s) := by
  simp only [issueRequest, apply_ite (withImageB width height pixels marks)]
  rfl

theorem loadSymbol_withImageB (d : Descriptor) (s : State) :
    loadSymbol d (withImageB width height pixels marks s) =
      withImageB width height pixels marks (loadSymbol d s) := by
  simp only [loadSymbol, apply_ite (withImageB width height pixels marks)]
  rfl

/-! ## The stages that read image A -/

/-- The effective height of both channels is HEIGHT_A. -/
theorem needsPixel_withImageB {s : State} (d : Descriptor) (h : s.single = true) :
    needsPixel d (withImageB width height pixels marks s) = needsPixel d s := by
  have heff : effHeight (withImageB width height pixels marks s) d.ch = effHeight s d.ch := by
    cases d.ch <;> simp [effHeight, withImageB, h]
  simp only [needsPixel, inImage, heff]
  rfl

variable {pixels marks}

theorem takeResponse_withImageB {s : State} (d : Descriptor) (h : s.single = true)
    (hagree : AgreeOnImageA pixels marks s) :
    takeResponse d (withImageB width height pixels marks s) =
      withImageB width height pixels marks (takeResponse d s) := by
  obtain ⟨hpixel, hmark⟩ := hagree _ (pixelRequest_ch_of_single d h)
  by_cases hc : pixelAddr (pixelRequest d s) ∈ s.changed
  · simp only [takeResponse]
    rw [if_pos hc, if_pos (by exact hmark.mpr hc)]
    rfl
  · simp only [takeResponse]
    rw [if_neg hc, if_neg (by exact mt hmark.mp hc), ← hpixel]
    rfl

/-- One slot's work in single-image mode. -/
theorem workSample_withImageB {s : State} (d : Descriptor) (h : s.single = true)
    (hagree : AgreeOnImageA pixels marks s) :
    workSample d (withImageB width height pixels marks s) =
      withImageB width height pixels marks (workSample d s) := by
  have hneeds := needsPixel_withImageB width height pixels marks d h
  rcases workSample_cases d s with ⟨byte, ho, hw⟩ | ⟨ho, hn, hsource, hw⟩ | ⟨ho, hn, hsource, hw⟩ |
    ⟨ho, hn, hw⟩ <;> rw [hw]
  · rw [workSample_held (by exact ho), ← offerSample_some ho, ← offerSample_withImageB]
    exact (offerSample_some (by exact ho)).symm
  · rw [workSample_silent_source (by exact ho) (hneeds.trans hn) (by exact hsource), issueRequest_withImageB]
  · have hsingle : (issueRequest d s).single = true := (issueRequest_single d s).trans h
    have hasked : AgreeOnImageA pixels marks (issueRequest d s) := by
      simpa [AgreeOnImageA, pixelAt] using hagree
    rw [workSample_answered (by exact ho) (hneeds.trans hn) (by exact hsource), issueRequest_withImageB,
      takeResponse_withImageB width height d hsingle hasked, holdSample_withImageB, offerSample_withImageB]
  · rw [workSample_no_pixel (by exact ho) (hneeds.trans hn), loadSymbol_withImageB, holdSample_withImageB,
      offerSample_withImageB]

end

/-! ## The obligations -/

/-- Settles O40: neither the enabling of a slot nor its work looks at image B. -/
theorem singleImageModeIgnoresImageB : Obligations.SingleImageModeIgnoresImageB := by
  intro p hp s t width height pixels marks hsingle hagree hexec
  change exec p.1 (withImageB width height pixels marks s) = .next (withImageB width height pixels marks t)
  rw [exec_segmentOp hp] at hexec ⊢
  rcases sampleStep_next hexec with ⟨hidle, rfl⟩ | ⟨hbusy, hphase, hpos, rfl⟩
  · exact if_pos hidle
  · rw [sampleStep_enabled (by exact hbusy) (by exact hphase) (by exact hpos),
      workSample_withImageB width height p.2 hsingle hagree]

end Sys2Proof.Machine
end
